-- ==== Sys2Proof/Word.lean ====
section
/-!
DEFINITION. The plain words of the data book: bytes, 16-bit values, channel and page numbers,
register window offsets, and a group of four like things, one for each channel.
-/
namespace Sys2Proof

/-- A byte is eight bits (00_scope.md, Conventions). -/
abbrev Byte := BitVec 8

/-- A 16-bit value of the register window (00_scope.md, Conventions). -/
abbrev Half := BitVec 16

/-- A channel number, 0 to 3. -/
abbrev Chan := Fin 4

/-- A page number, 00h to FFh (R17). -/
abbrev Page := BitVec 8

/-- A register window offset, A[5:0], 00h to 3Fh (R178). -/
abbrev Offset := BitVec 6

/-- Bits 15 to 8 of a 16-bit value. -/
def hiByte (h : Half) : Byte := h.extractLsb' 8 8

/-- Bits 7 to 0 of a 16-bit value. -/
def loByte (h : Half) : Byte := h.extractLsb' 0 8

/-- The 16-bit value of a high and a low byte. -/
def half (hi lo : Byte) : Half := hi ++ lo

/-- One thing for each of the four channels. -/
structure Quad (α : Type) where
  ch0 : α
  ch1 : α
  ch2 : α
  ch3 : α
  deriving DecidableEq, Repr

/-- The thing of channel `c`. -/
def Quad.get {α : Type} (q : Quad α) (c : Chan) : α :=
  match c with
  | 0 => q.ch0
  | 1 => q.ch1
  | 2 => q.ch2
  | 3 => q.ch3

/-- The group with channel `c`'s thing replaced. -/
def Quad.set {α : Type} (q : Quad α) (c : Chan) (x : α) : Quad α :=
  match c with
  | 0 => { q with ch0 := x }
  | 1 => { q with ch1 := x }
  | 2 => { q with ch2 := x }
  | 3 => { q with ch3 := x }

/-- The group with every channel's thing changed alike. -/
def Quad.map {α β : Type} (f : α → β) (q : Quad α) : Quad β :=
  ⟨f q.ch0, f q.ch1, f q.ch2, f q.ch3⟩

/-- The same thing for every channel. -/
def Quad.all {α : Type} (x : α) : Quad α := ⟨x, x, x, x⟩

/-- Whether some channel's thing passes a test. -/
def Quad.any {α : Type} (p : α → Bool) (q : Quad α) : Bool :=
  p q.ch0 || p q.ch1 || p q.ch2 || p q.ch3

end Sys2Proof
end

