-- ==== Sys2Proof/Config.lean ====
section
/-!
DEFINITION. What the data book fixes for the part: capacities, identity bytes and fixed lengths.
The one value the model chooses, the byte an unwritten frame memory position reads as, is here too.
-/
namespace Sys2Proof.Config

/-- Bytes in a page (R17). -/
def pageSize : Nat := 64

/-- The longest chain, in pages (R19). -/
def maxChain : Nat := 4

/-- Capacity of the received frame queue (R93). -/
def rfqCapacity : Nat := 32

/-- Capacity of the transmit completion queue (R115). -/
def tcqCapacity : Nat := 16

/-- Capacity of one transmit queue (R104). -/
def txqCapacity : Nat := 8

/-- Capacity of the sequence table (R73). -/
def seqCapacity : Nat := 32

/-- The value at which line idle time stays (R5). -/
def idleMax : Nat := 1023

/-- Sample ticks in a bit time (R2). -/
def ticksPerBit : Nat := 16

/-- Bit times in a hold unit (section 1.6, R16). -/
def holdUnit : Nat := 256

/-- The identity register (R179, section 11.4). -/
def idByte : Byte := 0xA4

/-- The revision register (R179, section 11.4). -/
def revByte : Byte := 0x01

/-- What a frame memory byte that nothing has written since pin reset reads as. R17 and R42 leave
page contents undefined after pin reset. DESIGN CHOICE, unsafe: log 5. -/
def unwrittenByte : Byte := 0x00

end Sys2Proof.Config
end

