-- ==== Sys2Proof/Syntax.lean ====
section
/-!
DEFINITION. The commands of the part: one constructor for each row of spec/opcode_table.json, with
the operands the row's rule gives it. A strobe has no operand: its command takes its operands from
ARG0 to ARG5 (R181) and whatever byte is written starts it (R178).
-/
namespace Sys2Proof

/-- A character as the receiver hands it on (R3): eight data bits, the marker bit and the
framing-error mark, which is set when the first stop bit was sampled low. -/
structure Character where
  data : Byte
  marker : Bool
  framing : Bool
  deriving DecidableEq, Repr

/-- The commands and events that change the part, one a row of the table. -/
inductive Instr where
  -- strobes, offsets 30h to 3Fh (section 10.3)
  | alloc
  | release
  | seek
  | take
  | submit
  | cancel
  | flush
  | popdone
  | enable
  | disable
  | abort
  | clearseq
  | stwrite
  | stread
  | counter
  | srst
  -- host accesses and pin reset
  | dataRead
  | dataWrite (v : Byte)
  | eventWrite (high : Bool) (v : Byte)
  | lowByteReadSnapshot (off : Offset)
  | registerWrite (off : Offset) (v : Byte)
  | pinReset
  -- receive side
  | characterReceived (c : Chan) (ch : Character)
  | receiveRequestServed
  | gapExpiry (c : Chan)
  | skipGapExit (c : Chan)
  | lineFault (c : Chan)
  -- starts of frames
  | responseStart (c : Chan)
  | flowFrameStart (c : Chan)
  | attemptStart (c : Chan)
  -- the line transmitter
  | readbackCharacter (c : Chan) (ch : Character)
  | missingReadback (c : Chan)
  | lineTransmitterQuiet (c : Chan)
  | collisionReported (c : Chan)
  | abortComplete (c : Chan)
  -- timers
  | backoffExpiry (c : Chan)
  | txAckTimeouts (c : Chan)
  | busyExpiry (c : Chan)
  | holdTimerExpiry (c : Chan)
  | refreshExpiry (c : Chan)
  | flowBackoffExpiry (c : Chan)
  -- the receiver
  | startBitDetected (c : Chan)
  | lineSampledHigh (c : Chan)
  deriving DecidableEq, Repr

end Sys2Proof
end

