-- ==== Sys2Proof/Machine/State.lean ====
section
/-!
DEFINITION. Everything the data book gives the part, as plain data, and its values after pin reset.
-/
namespace Sys2Proof.Machine

/-! ### Why a step can stop -/

/-- Faults. The data book has nothing that stops the part: a refused command completes with a
status code (R183) and every line error is counted or raised as an event. No command faults
(log 22, safe), so there is no constructor. -/
inductive Fault where
  deriving DecidableEq, Repr

/-- Refusals. -/
inductive Refusal where
  /-- Raised by an arm of `exec` that has no meaning yet, and by nothing else; safe. No arm raises
  it now. -/
  | notModelled (mnemonic : String)
  deriving DecidableEq, Repr

/-! ### Frame memory and the allocator (chapter 2) -/

/-- The holder of the chain a page belongs to, or FREE (R18, R22). -/
inductive Owner where
  | free
  | filling (c : Chan)
  | queuedRx
  | held
  | queuedTx (c : Chan)
  | activeTx (c : Chan)
  deriving DecidableEq, Repr

/-- A page record (R18); `link = none` is END. -/
structure PageRecord where
  owner : Owner
  headMark : Bool
  link : Option Page
  deriving DecidableEq, Repr

/-- The record of a page on the free list, which every page has after both resets (R18). -/
def PageRecord.free : PageRecord := ⟨.free, false, none⟩

/-- Frame memory: the bytes that differ from what an unwritten byte reads as, by address (R17). -/
abbrev Memory := List Host.Cell

/-- The page table: the records that differ from the free record, by page number (R18). -/
abbrev PageTable := List (Nat × PageRecord)

/-- States of the data port (R34). -/
inductive PortState where
  | detached
  | attached
  | ended
  deriving DecidableEq, Repr

/-- The data port: its state, PTR_PAGE and PTR_OFFSET (R34). -/
structure DataPort where
  mode : PortState
  page : Page
  offset : Byte
  deriving DecidableEq, Repr

/-! ### Receive engines and their tables (chapters 3 to 5) -/

/-- Parser states of a receive engine (R44, section 3.2). -/
inductive Parser where
  | hunt
  | destSeen
  | src
  | ctrl
  | len
  | payload
  | checkHi
  | checkLo
  | skip
  deriving DecidableEq, Repr

/-- The class a DEST is given (R48). -/
inductive AddrClass where
  | own
  | broadcast
  | listed
  | any
  deriving DecidableEq, Repr

/-- Frame kinds, CTRL bits 5 and 4 (R7, section 11.1). -/
inductive Kind where
  | data
  | ack
  | nak
  | hold
  deriving DecidableEq, Repr

/-- The room mark (R44): none, STORING with the filling chain's head page, or NO_ROOM. -/
inductive Room where
  | none
  | storing (head : Page)
  | noRoom
  deriving DecidableEq, Repr

/-- A receive engine (R44). `request` is the number of pages of a receive request that waits on the
allocator (R28); `checkHi` is the latched high CHECK character (R58). -/
@[ext]
structure Engine where
  parser : Parser
  cls : AddrClass
  dest : Byte
  src : Byte
  ctrl : Byte
  len : Byte
  count : Nat
  duration : Byte
  room : Room
  request : Option Nat
  check : Half
  checkHi : Byte
  deriving DecidableEq, Repr

/-- An engine that holds no frame in flight, in HUNT or SKIP. Its other fields are without meaning
(R44) and take fixed values here. DESIGN CHOICE, safe: log 12. -/
def Engine.idle (p : Parser) : Engine :=
  { parser := p, cls := .own, dest := 0, src := 0, ctrl := 0, len := 0, count := 0, duration := 0,
    room := .none, request := none, check := 0, checkHi := 0 }

/-- A station table entry (R49); bit c of the mask is channel c. -/
structure StationEntry where
  valid : Bool
  addr : Byte
  mask : BitVec 4
  deriving DecidableEq, Repr

/-- A sequence table entry (R73). -/
structure SeqEntry where
  chan : Chan
  src : Byte
  seq : BitVec 3
  deriving DecidableEq, Repr

/-- A received frame queue entry (R90). -/
structure RxEntry where
  head : Page
  chan : Chan
  cls : AddrClass
  dest : Byte
  src : Byte
  ctrl : Byte
  len : Byte
  arrival : Half
  deriving DecidableEq, Repr

/-- A pending response (R79). `nak` tells NAK from ACK; `gap` is what is left of the response gap,
in sample ticks (R15, R81). -/
structure Response where
  nak : Bool
  dest : Byte
  seq : BitVec 3
  gap : Nat
  deriving DecidableEq, Repr

/-! ### The transmit side (chapters 6 and 7) -/

/-- A transmit queue entry (R105). -/
structure TxEntry where
  head : Page
  pages : Nat
  dest : Byte
  src : Byte
  ar : Bool
  seq : BitVec 3
  len : Byte
  tag : Byte
  active : Bool
  deriving DecidableEq, Repr

/-- How an entry ended (R115, R116). -/
inductive TxOutcome where
  | sent
  | acked
  | failCollision
  | failNoAck
  | failBusy
  | aborted
  deriving DecidableEq, Repr

/-- A transmit completion queue record (R115). -/
structure TxRecord where
  chan : Chan
  tag : Byte
  seq : BitVec 3
  outcome : TxOutcome
  attempts : Nat
  deriving DecidableEq, Repr

/-- Sequencer states (R122). -/
inductive SeqState where
  | idle
  | defer
  | attempt
  | backoff
  | awaitAck
  | busyWait
  | completeWait
  deriving DecidableEq, Repr

/-- A transmit sequencer (R122): its state, attempt count, latched retry limit, held outcome and the
timer of its state with its remaining time in sample ticks. -/
@[ext]
structure Sequencer where
  state : SeqState
  attempts : Nat
  limit : Nat
  outcome : Option TxOutcome
  timer : Option Nat
  deriving DecidableEq, Repr

/-- The sequencer after both resets (R147). -/
def Sequencer.reset : Sequencer := ⟨.idle, 0, 0, none, none⟩

/-- The three sources of a line transmitter (R125). -/
inductive TxKind where
  | response
  | flow
  | data
  deriving DecidableEq, Repr

/-- What the readback comparator has found about the frame on the line (R127 to R129). -/
inductive Verdict where
  | pending
  | clean
  | collision
  deriving DecidableEq, Repr

/-- A frame on the line (R126): its source, its characters' data bits, the index of the character
being sent, the sample ticks within that character, whether the receiver has completed a character
for it (R127), and the comparator's verdict. -/
structure Sending where
  kind : TxKind
  chars : List Byte
  index : Nat
  ticks : Nat
  readBack : Bool
  verdict : Verdict
  deriving DecidableEq, Repr

/-- A line transmitter: QUIET or SENDING (R125). -/
inductive LineTx where
  | quiet
  | sending (f : Sending)
  deriving DecidableEq, Repr

/-! ### Flow control (chapter 8) -/

/-- States of the pool monitor (R148). -/
inductive Pool where
  | normal
  | low
  deriving DecidableEq, Repr

/-- Phases of a flow frame (R150). -/
inductive FlowPhase where
  | waiting
  | sending
  | backoff
  deriving DecidableEq, Repr

/-- A flow frame in its slot (R150): RESUME or HOLD, phase, flow attempt count, latched limit and
backoff timer (sample ticks). `d` and `own` are the duration and the own address of the attempt
last started (R154), which R155 and R156 use. -/
structure FlowFrame where
  resume : Bool
  phase : FlowPhase
  attempts : Nat
  limit : Nat
  timer : Option Nat
  d : Byte
  own : Byte
  deriving DecidableEq, Repr

/-- A flow frame as it is placed: WAITING, flow attempt count 0 (R150). Its limit is read at its first
attempt, and `d` and `own` belong to one; the 0 that each holds before it is the model's choice
(DESIGN CHOICE, log 12). -/
def FlowFrame.fresh (resume : Bool) : FlowFrame :=
  { resume := resume, phase := .waiting, attempts := 0, limit := 0, timer := none, d := 0, own := 0 }

/-! ### The receiver and the channel (chapters 1 and 9) -/

/-- The receiver (R3): looking for a falling edge, after an edge that is a candidate start bit, within
a character, or waiting until it samples the line high. -/
inductive Receiver where
  | looking
  | candidate
  | inCharacter
  | waitHigh
  deriving DecidableEq, Repr

/-- A low period of the receive line (R4): its length so far in sample ticks, and whether LINE_FAULT
has been raised in it. -/
structure LowPeriod where
  ticks : Nat
  raised : Bool
  deriving DecidableEq, Repr

/-- Channel states (R163). -/
inductive Mode where
  | off
  | run
  | stopping
  | aborting
  deriving DecidableEq, Repr

/-- Everything a channel holds. -/
@[ext]
structure Channel where
  -- configuration registers (R172)
  ownAddr : Byte
  div : Half
  flags : Byte
  spacing : Half
  gapLim : Byte
  retry : Byte
  backoff : Byte
  ackTo : Byte
  busyDly : Byte
  -- channel control (R163, R2, R175)
  mode : Mode
  latchedDiv : Half
  latchedTwoStop : Bool
  prescale : Nat
  counters : Vector Half 16
  -- receiver and line timing (R3 to R5): the level of RXDn; the receiver, the sample ticks since the
  -- falling edge it follows and the data and marker bits it has sampled, the latest in bit 8
  rxd : Bool
  rx : Receiver
  rxTicks : Nat
  rxBits : BitVec 9
  lowPeriod : Option LowPeriod
  idle : Nat
  idleRunning : Bool
  idlePhase : Nat
  -- receive side (R44, R79)
  engine : Engine
  response : Option Response
  -- transmit side (R104, R110, R122, R125)
  txq : List TxEntry
  seqCounter : BitVec 3
  sequencer : Sequencer
  lineTx : LineTx
  -- flow control (R150, R153, R158)
  flow : Option FlowFrame
  holdOutstanding : Bool
  refresh : Option Nat
  holdTimer : Option Nat
  deriving DecidableEq, Repr

/-- A channel after pin reset (R172, R177). The receive line's level, and the values of items that
have no meaning in OFF, are the model's (log 6, log 12). -/
def Channel.reset : Channel :=
  { ownAddr := 0x00, div := 0x0000, flags := 0x2A, spacing := 0x0024, gapLim := 0x18, retry := 0x03,
    backoff := 0x18, ackTo := 0x40, busyDly := 0x04,
    mode := .off, latchedDiv := 0, latchedTwoStop := false, prescale := 0,
    counters := Vector.replicate 16 0,
    rxd := true, rx := .looking, rxTicks := 0, rxBits := 0, lowPeriod := none,
    idle := 0, idleRunning := false, idlePhase := 0,
    engine := .idle .hunt, response := none,
    txq := [], seqCounter := 0, sequencer := .reset, lineTx := .quiet,
    flow := none, holdOutstanding := false, refresh := none, holdTimer := none }

/-! ### The part -/

/-- Completion codes of CMD_STATUS (R183). -/
inductive StatusCode where
  | none
  | ok
  | inProg
  | badArg
  | badChain
  | badLen
  | check
  | noRoom
  | qFull
  | empty
  | notFound
  | active
  | state
  deriving DecidableEq, Repr

/-- The state of the part. `pending` is the queue of commands, first in, first out (log 1).
`resetLow` says that RESET# is low (R191). `resetIn` and `rxdIn` are what comes on the input pins: for
each REFCLK period to come the level of RESET# (true is high; log 17), and a level for each receive
line, bit c for RXDc (log 6). -/
@[ext]
structure State where
  pending : List Instr
  -- input pins
  resetLow : Bool
  resetIn : List Bool
  rxdIn : List (BitVec 4)
  -- host bus and command unit (chapter 10)
  dOut : Byte
  arg : Vector Byte 6
  res : Vector Byte 8
  cmdStatus : StatusCode
  busy : Option Chan
  event : Half
  eventEn : Half
  condEn : Byte
  snapEvent : Byte
  snapEventEn : Byte
  snapFree : Byte
  snapDiv : Byte
  snapSpacing : Byte
  chsel : Chan
  -- frame memory (chapter 2)
  mem : Memory
  pageTable : PageTable
  freeList : List Page
  reserve : Byte
  lastRx : Chan
  port : DataPort
  -- tables and queues (chapters 3 to 6)
  station : Vector StationEntry 16
  seqTable : List SeqEntry
  rfq : List RxEntry
  arrival : Half
  tcq : List TxRecord
  lastTcq : Chan
  -- pool monitor (chapter 8)
  pool : Pool
  holdLevel : Byte
  resumeLevel : Byte
  holdTime : Byte
  -- the four channels (chapter 9)
  chans : Quad Channel
  deriving DecidableEq, Repr

/-- The free list after both resets: 00h to FFh ascending (R23). -/
def freeListReset : List Page := (List.range 256).map (BitVec.ofNat 8)

/-- The part right after pin reset: section 11.4 and R42, R49, R73, R103, R121, R148, R150, R177,
R191. -/
def State.reset : State :=
  { pending := [],
    resetLow := false, resetIn := [], rxdIn := [],
    dOut := 0x00,
    arg := Vector.replicate 6 0, res := Vector.replicate 8 0, cmdStatus := .none, busy := none,
    event := 0, eventEn := 0, condEn := 0,
    snapEvent := 0x00, snapEventEn := 0x00, snapFree := 0x01, snapDiv := 0x00, snapSpacing := 0x00,
    chsel := 0,
    mem := [], pageTable := [], freeList := freeListReset, reserve := 0x08, lastRx := 3,
    port := ⟨.detached, 0, 0⟩,
    station := Vector.replicate 16 ⟨false, 0, 0⟩, seqTable := [], rfq := [], arrival := 0,
    tcq := [], lastTcq := 3,
    pool := .normal, holdLevel := 0x20, resumeLevel := 0x30, holdTime := 0x10,
    chans := Quad.all Channel.reset }

/-- The answer of a meaning. -/
abbrev Result := Host.Outcome State Fault Refusal

end Sys2Proof.Machine
end

