-- ==== Sys2Proof/Machine/Operands.lean ====
section
/-!
DEFINITION. The forms values take: configuration values as they act, packed arguments field by field,
the CTRL character, the record headers, the check, and the packed bytes the host reads (chapter 11).
-/
namespace Sys2Proof.Machine

/-! ### Addresses and configuration values as they act -/

/-- Whether a byte is an individual address, 01h to EFh (R8). -/
def isIndividual (b : Byte) : Bool := 0x01 ≤ b.toNat && b.toNat ≤ 0xEF

/-- Whether the channel has an own address: OWNADDR outside 01h to EFh acts as 00h (R8). -/
def Channel.hasOwn (ch : Channel) : Bool := isIndividual ch.ownAddr

/-- Spacing S in bit times: 24 to 1023, clamped (R172, section 1.6). -/
def Channel.spacingBits (ch : Channel) : Nat := max 24 (min 1023 ch.spacing.toNat)

/-- The gap limit in bit times: below 12 acts as 12 (R59, R172). -/
def Channel.gapLimit (ch : Channel) : Nat := max 12 ch.gapLim.toNat

/-- The backoff unit B in bit times: below 12 acts as 12 (R133, R172). -/
def Channel.backoffUnit (ch : Channel) : Nat := max 12 ch.backoff.toNat

/-- The ack timeout in bit times: ACKTO x 16, 0 acting as 1 (R135). -/
def Channel.ackBits (ch : Channel) : Nat := max 1 ch.ackTo.toNat * 16

/-- The busy delay in bit times: BUSYDLY x 256, 0 acting as 1 (R138). -/
def Channel.busyBits (ch : Channel) : Nat := max 1 ch.busyDly.toNat * 256

/-- The retry limit: above 15 acts as 15 (R131). -/
def Channel.retryLimit (ch : Channel) : Nat := min 15 ch.retry.toNat

/-- The character time C in bit times under the latched stop-bit setting (section 1.1, R2). -/
def Channel.charBits (ch : Channel) : Nat := if ch.latchedTwoStop then 12 else 11

/-- Bit times in sample ticks (R2). -/
def bitTicks (n : Nat) : Nat := n * Config.ticksPerBit

/-- The host reserve H: above 64 acts as 64 (R27). -/
def State.hostReserve (s : State) : Nat := min 64 s.reserve.toNat

/-- The hold duration D: 0 acts as 1 (R150, R154). -/
def State.holdDuration (s : State) : Byte := if s.holdTime = 0 then 1 else s.holdTime

/-- The level at which the monitor leaves LOW: max(U, T + 1) (R148). -/
def State.leaveLow (s : State) : Nat := max s.resumeLevel.toNat (s.holdLevel.toNat + 1)

/-- A length of `d` hold units in sample ticks (R16). -/
def holdTicks (d : Byte) : Nat := bitTicks (d.toNat * Config.holdUnit)

/-- The backoff length after attempt `a` for own address `own`: ((k + a) mod 8 + 1) x B bit times
with k = own mod 8 (R133, R156), in sample ticks. -/
def Channel.backoffTicks (ch : Channel) (own : Byte) (a : Nat) : Nat :=
  bitTicks (((own.toNat % 8 + a) % 8 + 1) * ch.backoffUnit)

/-! ### FLAGS (section 11.5) -/

/-- FLAGS bit 0: two stop bits. -/
def Channel.twoStop (ch : Channel) : Bool := ch.flags.getLsbD 0

/-- FLAGS bit 1: accept broadcast. -/
def Channel.acceptBroadcast (ch : Channel) : Bool := ch.flags.getLsbD 1

/-- FLAGS bit 2: promiscuous. -/
def Channel.promiscuous (ch : Channel) : Bool := ch.flags.getLsbD 2

/-- FLAGS bit 3: auto-respond. -/
def Channel.autoRespond (ch : Channel) : Bool := ch.flags.getLsbD 3

/-- FLAGS bit 4: hold-send. -/
def Channel.holdSend (ch : Channel) : Bool := ch.flags.getLsbD 4

/-- FLAGS bit 5: hold-honour. -/
def Channel.holdHonour (ch : Channel) : Bool := ch.flags.getLsbD 5

/-! ### CTRL (R7, section 11.1) -/

/-- The kind in CTRL bits 5 and 4. -/
def ctrlKind (b : Byte) : Kind :=
  match b.getLsbD 5, b.getLsbD 4 with
  | false, false => .data
  | false, true => .ack
  | true, false => .nak
  | true, true => .hold

/-- The AR flag, CTRL bit 3. -/
def ctrlAr (b : Byte) : Bool := b.getLsbD 3

/-- SEQ, CTRL bits 2 to 0. -/
def ctrlSeq (b : Byte) : BitVec 3 := b.extractLsb' 0 3

/-- Whether either must-be-zero bit of CTRL is 1. -/
def ctrlReserved (b : Byte) : Bool := b.getLsbD 7 || b.getLsbD 6

/-- The code of a kind. -/
def Kind.code : Kind → BitVec 2
  | .data => 0
  | .ack => 1
  | .nak => 2
  | .hold => 3

/-- A CTRL character the part sends: both must-be-zero bits 0 (R7). -/
def packCtrl (k : Kind) (ar : Bool) (seq : BitVec 3) : Byte :=
  (0#2 ++ k.code) ++ (BitVec.ofBool ar ++ seq)

/-- Whether a SRC is well formed (R11). -/
def srcOk (b : Byte) : Bool := isIndividual b

/-- Whether a CTRL is well formed (R11): must-be-zero bits 0, and AR only on DATA. -/
def ctrlOk (b : Byte) : Bool := !ctrlReserved b && (!ctrlAr b || ctrlKind b == .data)

/-- Whether a LEN is well formed for a kind (R11). -/
def lenOk (k : Kind) (len : Byte) : Bool :=
  len.toNat ≤ 240 &&
    match k with
    | .data => true
    | .ack | .nak => len == 0
    | .hold => len == 1

/-! ### Lengths and chains -/

/-- pages(L), the pages needed for a payload of L bytes (R20). -/
def pagesFor (len : Nat) : Nat := if len ≤ 56 then 1 else 1 + (len - 56 + 63) / 64

/-- A number in a result register or record byte, its upper bits 0 (R194). -/
def byteOf (n : Nat) : Byte := BitVec.ofNat 8 n

/-! ### The check (R9) -/

/-- One step of the check register: feedback from bit 15 and the data bit, shift, XOR with 1021h. -/
def crcBit (r : Half) (b : Bool) : Half :=
  if r.getLsbD 15 != b then (r <<< 1) ^^^ 0x1021 else r <<< 1

/-- A byte fed through the check register, bit 7 first. -/
def crcByte (r : Half) (b : Byte) : Half :=
  [7, 6, 5, 4, 3, 2, 1, 0].foldl (fun r i => crcBit r (b.getLsbD i)) r

/-- The check of a run of bytes, the register preset to FFFFh. -/
def crc (bytes : List Byte) : Half := bytes.foldl crcByte 0xFFFF

/-- A frame's characters: its bytes from DEST through the last payload character, then CHECK, high
byte first (R6, R9). -/
def withCheck (bytes : List Byte) : List Byte := bytes ++ [hiByte (crc bytes), loByte (crc bytes)]

/-! ### Record headers and packed result bytes (section 11.2, 11.3) -/

/-- The code of a class. -/
def AddrClass.code : AddrClass → Nat
  | .own => 0
  | .broadcast => 1
  | .listed => 2
  | .any => 3

/-- The channel-and-class byte. -/
def chanClass (c : Chan) (k : AddrClass) : Byte := byteOf (k.code * 4 + c.val)

/-- The receive record header of an entry, which is also RES0 to RES7 after TAKE (R69, R96). -/
def receiveHeader (e : RxEntry) : List Byte :=
  [e.head, chanClass e.chan e.cls, e.dest, e.src, e.ctrl, e.len, loByte e.arrival, hiByte e.arrival]

/-- The transmit record header SUBMIT writes (R108); attempts is 0. -/
def transmitHeader (c : Chan) (e : TxEntry) : List Byte :=
  [byteOf c.val, e.dest, e.src, packCtrl .data e.ar e.seq, e.len, byteOf e.pages, e.tag, 0]

/-- The outcome code of RES3 after POPDONE. -/
def TxOutcome.code : TxOutcome → Nat
  | .sent => 0
  | .acked => 1
  | .failCollision => 2
  | .failNoAck => 3
  | .failBusy => 4
  | .aborted => 5

/-- The mask-and-valid byte of STWRITE's ARG2 and STREAD's RES2. -/
def packMask (e : StationEntry) : Byte := BitVec.ofBool e.valid ++ (0#3 ++ e.mask)

/-- The station table entry that STWRITE's arguments name (R50, R194). -/
def unpackStation (addr mask : Byte) : StationEntry :=
  ⟨mask.getLsbD 7, addr, mask.extractLsb' 0 4⟩

/-- The check byte of SUBMIT (R107). -/
def checkByte (dest len : Byte) : Byte := ~~~(dest ^^^ len)

/-- A whole-byte channel argument: above 3 is out of range (R195). -/
def chanArg (b : Byte) : Option Chan :=
  if h : b.toNat < 4 then some ⟨b.toNat, h⟩ else none

/-- SUBMIT's ARG1: the three-bit channel number field (R195). -/
def submitChan (b : Byte) : Option Chan := chanArg (b &&& 0x07)

/-- SUBMIT's ARG1 bit 7: the AR flag. -/
def submitAr (b : Byte) : Bool := b.getLsbD 7

/-- The code of a status (R183). -/
def StatusCode.code : StatusCode → Byte
  | .none => 0x00
  | .ok => 0x01
  | .inProg => 0x02
  | .badArg => 0x10
  | .badChain => 0x11
  | .badLen => 0x12
  | .check => 0x13
  | .noRoom => 0x14
  | .qFull => 0x15
  | .empty => 0x16
  | .notFound => 0x17
  | .active => 0x18
  | .state => 0x19

/-- The code of a port state (section 11.4). -/
def PortState.code : PortState → Byte
  | .detached => 0x00
  | .attached => 0x01
  | .ended => 0x02

/-- The code of a channel state (section 11.5). -/
def Mode.code : Mode → BitVec 2
  | .off => 0
  | .run => 1
  | .stopping => 2
  | .aborting => 3

/-- The code of a sequencer state (section 11.5). -/
def SeqState.code : SeqState → BitVec 3
  | .idle => 0
  | .defer => 1
  | .attempt => 2
  | .backoff => 3
  | .awaitAck => 4
  | .busyWait => 5
  | .completeWait => 6

/-- CHSTATE of a channel (R174, section 11.5). -/
def Channel.chState (ch : Channel) : Byte :=
  (BitVec.ofBool ch.response.isSome ++ BitVec.ofBool ch.holdOutstanding) ++
    (BitVec.ofBool ch.holdTimer.isSome ++ (ch.sequencer.state.code ++ ch.mode.code))

/-! ### The line (R1, R3, R126) -/

/-- The sample ticks from a falling edge to the middle of the start bit's cell (R3). -/
def startSample : Nat := 8

/-- The sample ticks from a falling edge to the middle of the first stop bit's cell (R3). -/
def stopSample : Nat := 10 * Config.ticksPerBit + startSample

/-- The character the receiver has assembled when it samples the first stop bit: a framing error if the
line is low there (R3). -/
def Channel.assembled (ch : Channel) : Character :=
  ⟨ch.rxBits.extractLsb' 0 8, ch.rxBits.getLsbD 8, !ch.rxd⟩

/-- DEn: active through every character of a frame the line transmitter sends (R1, R126). -/
def Channel.de (ch : Channel) : Bool :=
  match ch.lineTx with
  | .quiet => false
  | .sending _ => true

/-- The level of a cell of a character (section 1.1): start low, data bits 0 to 7, marker, stop high. -/
def cellLevel (data : Byte) (marker : Bool) (cell : Nat) : Bool :=
  if cell = 0 then false
  else if cell ≤ 8 then data.getLsbD (cell - 1)
  else if cell = 9 then marker
  else true

/-- TXDn: high whenever no character is being sent (R1); the marker bit is 1 in the frame's first
character alone (R6). -/
def Channel.txd (ch : Channel) : Bool :=
  match ch.lineTx with
  | .quiet => true
  | .sending f =>
    match f.chars[f.index]? with
    | none => true
    | some b => cellLevel b (f.index == 0) (f.ticks / Config.ticksPerBit)

end Sys2Proof.Machine
end

