-- ==== Sys2Proof/Machine/Flags.lean ====
section
/-!
DEFINITION. Events, conditions, the interrupt line and the counters (R175, R187 to R190).
-/
namespace Sys2Proof.Machine

/-- The thirteen events (R187). -/
inductive Event where
  | cmdDone
  | cmdReject
  | poolLow
  | poolNormal
  | holdIn
  | holdOut
  | chanOff
  | tcqStall
  | tcqLost
  | rfqFull
  | portFault
  | lineFault
  | counterSat
  deriving DecidableEq, Repr

/-- The position of an event's flag (section 11.5). -/
def Event.bit : Event → Nat
  | .cmdDone => 0
  | .cmdReject => 1
  | .poolLow => 2
  | .poolNormal => 3
  | .holdIn => 4
  | .holdOut => 5
  | .chanOff => 6
  | .tcqStall => 7
  | .tcqLost => 8
  | .rfqFull => 9
  | .portFault => 10
  | .lineFault => 11
  | .counterSat => 12

/-- The flag word of one event. -/
def Event.mask (e : Event) : Half := BitVec.twoPow 16 e.bit

/-- An event is raised: its flag in EVENT is set (00_scope.md, R187). -/
def State.raise (s : State) (e : Event) : State := { s with event := s.event ||| e.mask }

/-- An event is raised if a condition holds. -/
def State.raiseIf (s : State) (b : Bool) (e : Event) : State := if b then s.raise e else s

/-- The sixteen counters of a channel (R175). -/
inductive Counter where
  | rxFrames
  | rxCheck
  | rxFraming
  | rxGap
  | rxTrunc
  | rxMalformed
  | rxNoRoom
  | rxQFull
  | rxDuplicate
  | txFrames
  | txCollisions
  | txAckTimeouts
  | txNaks
  | strayResponses
  | respDropped
  | flowDropped
  deriving DecidableEq, Repr

/-- The index of a counter (R175). -/
def Counter.index : Counter → Fin 16
  | .rxFrames => 0
  | .rxCheck => 1
  | .rxFraming => 2
  | .rxGap => 3
  | .rxTrunc => 4
  | .rxMalformed => 5
  | .rxNoRoom => 6
  | .rxQFull => 7
  | .rxDuplicate => 8
  | .txFrames => 9
  | .txCollisions => 10
  | .txAckTimeouts => 11
  | .txNaks => 12
  | .strayResponses => 13
  | .respDropped => 14
  | .flowDropped => 15

/-- A channel of the part. -/
def State.chan (s : State) (c : Chan) : Channel := s.chans.get c

/-- The part with one channel changed. -/
def State.updChan (s : State) (c : Chan) (f : Channel → Channel) : State :=
  { s with chans := s.chans.set c (f (s.chans.get c)) }

/-- A counter's value. -/
def Channel.counter (ch : Channel) (k : Counter) : Half := ch.counters[k.index]

/-- A counter after one count: it stays at FFFFh (R175). -/
def countUp (v : Half) : Half := if v = 0xFFFF then v else v + 1

/-- The channel after one count. -/
def Channel.counted (k : Counter) (ch : Channel) : Channel :=
  { ch with counters := ch.counters.set k.index (countUp (ch.counter k)) }

/-- A counter of a channel counts; the count that takes it from FFFEh to FFFFh raises COUNTER_SAT
(R175). -/
def State.count (s : State) (c : Chan) (k : Counter) : State :=
  (s.updChan c (Channel.counted k)).raiseIf ((s.chan c).counter k == 0xFFFE) .counterSat

/-- RFQ_AVAIL (R99). -/
def State.rfqAvail (s : State) : Bool := !s.rfq.isEmpty

/-- TCQ_AVAIL (R120). -/
def State.tcqAvail (s : State) : Bool := !s.tcq.isEmpty

/-- POOL_IS_LOW (R148). -/
def State.poolIsLow (s : State) : Bool := s.pool == .low

/-- COND (R189, section 11.5). -/
def State.cond (s : State) : Byte :=
  0#4 ++ (BitVec.ofBool s.poolIsLow ++
    (BitVec.ofBool s.busy.isSome ++ (BitVec.ofBool s.tcqAvail ++ BitVec.ofBool s.rfqAvail)))

/-- Whether INT# is asserted (R190); it is released while RESET# is low (R191). -/
def State.intAsserted (s : State) : Bool :=
  !s.resetLow && ((s.event &&& s.eventEn) != 0 || (s.cond &&& s.condEn) != 0)

/-- DEn: released while RESET# is low (R191). -/
def State.de (s : State) (c : Chan) : Bool := !s.resetLow && (s.chan c).de

/-- TXDn: high while RESET# is low (R191). -/
def State.txd (s : State) (c : Chan) : Bool := s.resetLow || (s.chan c).txd

end Sys2Proof.Machine
end

