-- ==== Sys2Proof/Machine/Ops.lean ====
section
/-!
DEFINITION. The operations that commands share: sparse tables, frame memory and chains (R17 to R21),
grants and releases (R25, R26), the pool monitor (R148 to R152), the allocator's arbiter (R28 to R30),
a channel's entry into OFF (R166, R167) and the completion of commands (R181 to R185).
-/
namespace Sys2Proof.Machine

/-! ### Sparse tables -/

/-- What a sparse table holds at a key, `d` where no entry is listed. -/
def Sparse.find {β : Type} (d : β) : List (Nat × β) → Nat → β
  | [], _ => d
  | (k, v) :: t, a => if a = k then v else Sparse.find d t a

/-- A sparse table with `v` stored at a key. The keys stay in rising order, and a value equal to the
unlisted one is not listed. -/
def Sparse.store {β : Type} [DecidableEq β] (d : β) : List (Nat × β) → Nat → β → List (Nat × β)
  | [], a, v => if v = d then [] else [(a, v)]
  | (k, w) :: t, a, v =>
    if a < k then (if v = d then (k, w) :: t else (a, v) :: (k, w) :: t)
    else if a = k then (if v = d then t else (a, v) :: t)
    else (k, w) :: Sparse.store d t a v

/-- The canonical form: keys strictly rising, and no entry equal to the unlisted value. -/
abbrev Sparse.wf {β : Type} (d : β) (l : List (Nat × β)) : Prop :=
  (l.map Prod.fst).Pairwise (· < ·) ∧ ∀ x ∈ l, x.2 ≠ d

/-! ### Frame memory -/

/-- The byte at an address. -/
def Memory.read (m : Memory) (a : Nat) : Byte := Sparse.find Config.unwrittenByte m a

/-- Memory with a byte stored. -/
def Memory.write (m : Memory) (a : Nat) (v : Byte) : Memory :=
  Sparse.store Config.unwrittenByte m a v

/-- Memory is in its canonical form. -/
abbrev Memory.wf (m : Memory) : Prop := Sparse.wf Config.unwrittenByte m

/-- The address of byte `pos` of page `p` (R17). -/
def pageAddr (p : Page) (pos : Nat) : Nat := p.toNat * Config.pageSize + pos

/-! ### Page records and chains -/

/-- The record of a page in a page table (R18). -/
def PageTable.record (t : PageTable) (p : Page) : PageRecord := Sparse.find PageRecord.free t p.toNat

/-- A page table with one record replaced. -/
def PageTable.put (t : PageTable) (p : Page) (r : PageRecord) : PageTable :=
  Sparse.store PageRecord.free t p.toNat r

/-- The page table is in its canonical form. -/
abbrev PageTable.wf (t : PageTable) : Prop := Sparse.wf PageRecord.free t

/-- The pages of a chain from page `p`, following the links, at most `n` (R19). -/
def PageTable.walk (t : PageTable) : Nat → Page → List Page
  | 0, _ => []
  | n + 1, p =>
    p :: match (t.record p).link with
      | none => []
      | some q => t.walk n q

/-- The pages of the chain with head page `h`, in chain order. -/
def State.chainPages (s : State) (h : Page) : List Page := s.pageTable.walk Config.maxChain h

/-- The page count of a chain (R19). -/
def State.pageCount (s : State) (h : Page) : Nat := (s.chainPages h).length

/-- "ARG0 is the head of a HELD chain" (R19). -/
def State.isHeldHead (s : State) (p : Page) : Bool :=
  (s.pageTable.record p).headMark && (s.pageTable.record p).owner == .held

/-- The page table with the owner of the given pages rewritten. -/
def PageTable.own (t : PageTable) (o : Owner) (ps : List Page) : PageTable :=
  ps.foldl (fun t p => t.put p { t.record p with owner := o }) t

/-- A chain changes holder: the owner of all its pages is rewritten at one event (R22). -/
def State.setOwner (s : State) (h : Page) (o : Owner) : State :=
  { s with pageTable := s.pageTable.own o (s.chainPages h) }

/-- The address of chain offset `off` of chain `h`: byte off mod 64 of the page at position
floor(off / 64); none outside the chain (R21). -/
def State.chainAddr (s : State) (h : Page) (off : Nat) : Option Nat :=
  ((s.chainPages h)[off / Config.pageSize]?).map fun p => pageAddr p (off % Config.pageSize)

/-- The byte at a chain offset. No block reads an offset outside the chain (R21); 00h stands there
(log 15). -/
def State.chainByte (s : State) (h : Page) (off : Nat) : Byte :=
  match s.chainAddr h off with
  | some a => s.mem.read a
  | none => 0

/-- A byte stored at a chain offset; nothing is stored outside the chain (R21, log 15). -/
def State.storeChain (s : State) (h : Page) (off : Nat) (v : Byte) : State :=
  match s.chainAddr h off with
  | some a => { s with mem := s.mem.write a v }
  | none => s

/-- Bytes stored at successive chain offsets from `off`. -/
def State.storeBytes (s : State) (h : Page) : Nat → List Byte → State
  | _, [] => s
  | off, b :: bs => (s.storeChain h off b).storeBytes h (off + 1) bs

/-- Bytes at `n` successive chain offsets from `off`. -/
def State.chainBytes (s : State) (h : Page) (off n : Nat) : List Byte :=
  (List.range n).map fun i => s.chainByte h (off + i)

/-! ### The pool monitor -/

/-- The free count (R23). -/
def State.freeCount (s : State) : Nat := s.freeList.length

/-- FREE, sixteen bits (R24). -/
def State.freeWord (s : State) : Half := BitVec.ofNat 16 s.freeCount

/-- Whether the channel is RUN or STOPPING. -/
def Channel.inService (ch : Channel) : Bool := ch.mode == .run || ch.mode == .stopping

/-- Entry to LOW, as it acts on one channel (R151). -/
def Channel.enterLow (ch : Channel) : Channel :=
  if ch.inService then
    match ch.flow with
    | none =>
      if ch.holdOutstanding || (ch.holdSend && ch.hasOwn) then
        { ch with flow := some (.fresh false) }
      else ch
    | some f =>
      if f.resume && f.phase != .sending then { ch with flow := some (.fresh false) } else ch
  else ch

/-- Entry to NORMAL, as it acts on one channel (R152). The refresh timer stops (R153). -/
def Channel.enterNormal (ch : Channel) : Channel :=
  match ch.flow with
  | none =>
    if ch.holdOutstanding then { ch with flow := some (.fresh true), refresh := none }
    else { ch with refresh := none }
  | some f =>
    if f.resume || f.phase == .sending then { ch with refresh := none }
    else if ch.holdOutstanding then { ch with flow := some (.fresh true), refresh := none }
    else { ch with flow := none, refresh := none }

/-- The monitor judges the free count after a change (R149). -/
def State.poolJudge (s : State) : State :=
  match s.pool with
  | .normal =>
    if s.freeCount ≤ s.holdLevel.toNat then
      ({ s with pool := .low, chans := s.chans.map Channel.enterLow }).raise .poolLow
    else s
  | .low =>
    if s.leaveLow ≤ s.freeCount then
      ({ s with pool := .normal, chans := s.chans.map Channel.enterNormal }).raise .poolNormal
    else s

/-! ### Grants and releases -/

/-- The page table with pages linked into one chain in the order taken; the first is the head if
`isHead` (R25). -/
def PageTable.link (o : Owner) : Bool → List Page → PageTable → PageTable
  | _, [], t => t
  | isHead, p :: ps, t => PageTable.link o false ps (t.put p ⟨o, isHead, ps.head?⟩)

/-- A grant of `n` pages from the head of the free list (R25), which the monitor judges (R149). -/
def State.grant (s : State) (o : Owner) (n : Nat) : State :=
  State.poolJudge
    { s with
      pageTable := PageTable.link o true (s.freeList.take n) s.pageTable
      freeList := s.freeList.drop n }

/-- The page table with pages made FREE. -/
def PageTable.release (t : PageTable) (ps : List Page) : PageTable :=
  ps.foldl (fun t p => t.put p PageRecord.free) t

/-- A release of a whole chain to the tail of the free list (R26), which the monitor judges (R149). -/
def State.release (s : State) (h : Page) : State :=
  State.poolJudge
    { s with
      pageTable := s.pageTable.release (s.chainPages h)
      freeList := s.freeList ++ s.chainPages h }

/-! ### Entry into OFF -/

/-- Whether the parser has a frame in flight (section 3.2); the gap timer runs exactly then (R59). -/
def Parser.inFlight : Parser → Bool
  | .hunt | .skip | .checkLo => false
  | .destSeen | .src | .ctrl | .len | .payload | .checkHi => true

/-- Whether the head entry of the channel's transmit queue is active (R111). -/
def Channel.headActive (ch : Channel) : Bool :=
  match ch.txq with
  | [] => false
  | e :: _ => e.active

/-- The conditions under which a STOPPING channel enters OFF (R166). -/
def Channel.stopReady (ch : Channel) : Bool :=
  ch.mode == .stopping &&
  (ch.sequencer.state == .idle || (ch.sequencer.state == .defer && !ch.headActive)) &&
  ch.response.isNone && ch.flow.isNone && ch.lineTx == .quiet && ch.engine.parser == .hunt

/-- A channel enters OFF (R167): the receiver stops, the flag clears, every timer stops, and a
sequencer in DEFER goes to IDLE. -/
def Channel.toOff (ch : Channel) : Channel :=
  { ch with
    mode := .off, rx := .looking, rxTicks := 0, rxBits := 0, lowPeriod := none
    idle := 0, idleRunning := false, idlePhase := 0
    holdOutstanding := false, refresh := none, holdTimer := none,
    sequencer :=
      { ch.sequencer with
        state := if ch.sequencer.state = .defer then .idle else ch.sequencer.state
        timer := none } }

/-- A channel tests the stopping conditions (R166). -/
def Channel.settle (ch : Channel) : Channel := if ch.stopReady then ch.toOff else ch

/-- Every STOPPING channel whose conditions hold enters OFF, raising CHAN_OFF (R166, R167): the
channels test continuously, so every command that can make a condition true ends with this. -/
def State.settle (s : State) : State :=
  ({ s with chans := s.chans.map Channel.settle }).raiseIf (s.chans.any Channel.stopReady) .chanOff

/-! ### The allocator's arbiter -/

/-- The first of channels c + 1, c + 2, c + 3, c + 4, modulo 4, that passes a test (R30, R119). -/
def nextAfter (c : Chan) (p : Chan → Bool) : Option Chan :=
  [c + 1, c + 2, c + 3, c + 4].find? p

/-- Whether receive engine c has a receive request waiting. -/
def State.hasRequest (s : State) (c : Chan) : Bool := (s.chan c).engine.request.isSome

/-- An engine changed. -/
def State.updEngine (s : State) (c : Chan) (f : Engine → Engine) : State :=
  s.updChan c fun ch => { ch with engine := f ch.engine }

/-- The receive request of engine c for `n` pages is served (R28, R56): granted when the free count
is at least n + H, otherwise refused. Either way c is the last served (R30). -/
def State.serveRequest (s : State) (c : Chan) (n : Nat) : State :=
  if n + s.hostReserve ≤ s.freeCount then
    match s.freeList with
    | [] => { s with lastRx := c }.updEngine c fun e => { e with request := none, room := .noRoom }
    | h :: _ =>
      ({ s with lastRx := c }.updEngine c fun e =>
        { e with request := none, room := .storing h }).grant (.filling c) n
  else { s with lastRx := c }.updEngine c fun e => { e with request := none, room := .noRoom }

/-- The allocator serves one waiting receive request, if any waits (R30). Each grant is one change of
the free count, after which a channel whose stopping conditions hold enters OFF (R149, R166). -/
def State.serveOne (s : State) : State :=
  match nextAfter s.lastRx s.hasRequest with
  | none => s
  | some c =>
    match (s.chan c).engine.request with
    | none => s
    | some n => (s.serveRequest c n).settle

/-- The allocator serves waiting requests in order until engine c has none waiting: a request is
served before the next character of its frame completes (R28; log 10). -/
def State.serveFor (s : State) (c : Chan) : Nat → State
  | 0 => s
  | k + 1 => if s.hasRequest c then s.serveOne.serveFor c k else s

/-- The allocator serves every waiting receive request (R30). -/
def State.serveAll (s : State) : State := s.serveOne.serveOne.serveOne.serveOne

/-! ### Commands -/

/-- A command completes with a code: CMD_STATUS takes it and CMD_DONE is raised (R183, R184). -/
def State.done (s : State) (code : StatusCode) : State :=
  ({ s with cmdStatus := code }).raise .cmdDone

/-- A bus access: the part takes none while RESET# is low (R191). -/
def State.access (s : State) (body : State → State) : State := if s.resetLow then s else body s

/-- A strobe: refused without execution while ABORT is in progress, raising CMD_REJECT (R185). -/
def State.strobe (s : State) (body : State → State) : State :=
  s.access fun s => if s.busy.isSome then s.raise .cmdReject else body s

/-- Argument register i at the strobe (R182). -/
def State.argByte (s : State) (i : Fin 6) : Byte := s.arg[i]

/-- A result register loaded (R182). -/
def State.setRes (s : State) (i : Fin 8) (v : Byte) : State := { s with res := s.res.set i v }

/-- The first result registers loaded in order from register i on. -/
def State.loadRes (s : State) : Nat → List Byte → State
  | _, [] => s
  | i, b :: bs => (if h : i < 8 then s.setRes ⟨i, h⟩ b else s).loadRes (i + 1) bs

/-! ### The data port -/

/-- The port attached to a chain at an offset (R39). -/
def State.attach (s : State) (h : Page) (off : Byte) : State := { s with port := ⟨.attached, h, off⟩ }

/-- The port becomes DETACHED if the chain it is attached to stops being HELD (R40). -/
def State.detachFrom (s : State) (h : Page) : State :=
  if s.port.mode ≠ .detached ∧ s.port.page = h then { s with port := ⟨.detached, 0, 0⟩ } else s

end Sys2Proof.Machine
end

