-- ==== Sys2Proof/Machine/Sequencer.lean ====
section
/-!
DEFINITION. The transmit sequencers and the completion queue: completion (R117, R143, R144, R170),
deliveries (R136 to R142), the ends of an attempt (R133, R135) and the sequencer's timers (R134, R139,
R140).
-/
namespace Sys2Proof.Machine

/-- A sequencer changed. -/
def State.updSeq (s : State) (c : Chan) (f : Sequencer → Sequencer) : State :=
  s.updChan c fun ch => { ch with sequencer := f ch.sequencer }

/-- The record of the channel's head entry with an outcome (R143). -/
def recordOf (c : Chan) (e : TxEntry) (o : TxOutcome) (attempts : Nat) : TxRecord :=
  ⟨c, e.tag, e.seq, o, attempts⟩

/-- Whether an outcome counts TX_FRAMES (R143). -/
def TxOutcome.isSuccess : TxOutcome → Bool
  | .sent | .acked => true
  | .failCollision | .failNoAck | .failBusy | .aborted => false

/-- The head entry leaves the queue and the sequencer takes its next state with attempt count 0: DEFER
if another entry is queued and the channel is RUN, IDLE otherwise (R143). -/
def Channel.dropHead (ch : Channel) : Channel :=
  { ch with
    txq := ch.txq.tail
    sequencer :=
      { ch.sequencer with
        state := if ch.mode = .run ∧ ch.txq.tail ≠ [] then .defer else .idle
        attempts := 0, outcome := none, timer := none } }

/-- The six steps of a completion that has a place in the completion queue (R143). -/
def State.finishEntry (s : State) (c : Chan) (o : TxOutcome) : State :=
  match (s.chan c).txq with
  | [] => s
  | e :: _ =>
    let s1 := { s with tcq := s.tcq ++ [recordOf c e o (s.chan c).sequencer.attempts] }
    let s2 := s1.release e.head
    let s3 := if o.isSuccess then s2.count c .txFrames else s2
    s3.updChan c Channel.dropHead

/-- The sequencer claims a place for its outcome: it completes, or enters COMPLETE_WAIT and raises
TCQ_STALL (R117, R144). -/
def State.claim (s : State) (c : Chan) (o : TxOutcome) : State :=
  if s.tcq.length < Config.tcqCapacity then s.finishEntry c o
  else
    (s.updSeq c fun q =>
      { q with state := .completeWait, outcome := some o, timer := none }).raise .tcqStall

/-- The active entry completes ABORTED: its record is appended if there is room, and lost with
TCQ_LOST otherwise; the sequencer is IDLE afterwards (R170). -/
def State.completeAborted (s : State) (c : Chan) : State :=
  match (s.chan c).txq with
  | [] => s
  | e :: _ =>
    let s1 :=
      if s.tcq.length < Config.tcqCapacity then
        { s with tcq := s.tcq ++ [recordOf c e .aborted (s.chan c).sequencer.attempts] }
      else s.raise .tcqLost
    (s1.release e.head).updChan c fun ch =>
      { ch with txq := ch.txq.tail, sequencer := { Sequencer.reset with limit := ch.sequencer.limit } }

/-- Whether attempts remain: the attempt count is below 1 + L (R133, R138, R139). -/
def Sequencer.attemptsRemain (q : Sequencer) : Bool := q.attempts < 1 + q.limit

/-- A sequencer left waiting in a state with a timer of `n` sample ticks. -/
def Sequencer.wait (q : Sequencer) (st : SeqState) (n : Nat) : Sequencer :=
  { q with state := st, timer := some n }

/-- A sequencer in DEFER with its entry and attempt count kept, its timer stopped. -/
def Sequencer.toDefer (q : Sequencer) : Sequencer := { q with state := .defer, timer := none }

/-- The sequencer's head entry changes while it defers: an empty queue sends it to IDLE (R123). -/
def Channel.headWithdrawn (ch : Channel) : Channel :=
  if ch.txq.isEmpty && ch.sequencer.state == .defer then
    { ch with sequencer := { ch.sequencer with state := .idle } }
  else ch

/-- IDLE to DEFER when the channel is RUN and the queue holds an entry (R123). -/
def Channel.workArrived (ch : Channel) : Channel :=
  if ch.mode = .run ∧ ch.txq ≠ [] ∧ ch.sequencer.state = .idle then
    { ch with sequencer := ch.sequencer.toDefer }
  else ch

/-! ### Deliveries -/

/-- Whether a delivery matches: the head entry is active with AR set, its DEST is the delivery's SRC
and its SEQ the delivery's SEQ (R136). -/
def Channel.matchesDelivery (ch : Channel) (src : Byte) (seq : BitVec 3) : Bool :=
  match ch.txq with
  | [] => false
  | e :: _ => e.active && e.ar && e.dest == src && e.seq == seq

/-- The states in which a matching ACK is a late ACK (R141); DEFER needs an active entry, which a
match implies. -/
def SeqState.lateAck : SeqState → Bool
  | .defer | .backoff | .busyWait => true
  | .idle | .attempt | .awaitAck | .completeWait => false

/-- A received ACK or NAK of class OWN is delivered to the sequencer (R136 to R138, R141, R142). -/
def State.deliver (s : State) (c : Chan) (nak : Bool) (src : Byte) (seq : BitVec 3) : State :=
  let ch := s.chan c
  if ch.matchesDelivery src seq then
    match nak, ch.sequencer.state with
    | false, .awaitAck => s.claim c .acked
    | true, .awaitAck =>
      let s1 := s.count c .txNaks
      if ch.sequencer.attemptsRemain then
        s1.updSeq c fun q => q.wait .busyWait (bitTicks ch.busyBits)
      else s1.claim c .failBusy
    | false, st => if st.lateAck then s.claim c .acked else s.count c .strayResponses
    | true, _ => s.count c .strayResponses
  else s.count c .strayResponses

/-! ### The end of an attempt -/

/-- A data attempt ends cleanly (R135): SENT without AR, AWAIT_ACK with the ack timer with it. -/
def State.attemptClean (s : State) (c : Chan) : State :=
  match (s.chan c).txq with
  | [] => s
  | e :: _ =>
    if e.ar then s.updSeq c fun q => q.wait .awaitAck (bitTicks (s.chan c).ackBits)
    else s.claim c .sent

/-- A data attempt's collision is reported (R133): BACKOFF while attempts remain, else
FAIL_COLLISION. -/
def State.attemptCollision (s : State) (c : Chan) : State :=
  match (s.chan c).txq with
  | [] => s
  | e :: _ =>
    let ch := s.chan c
    let s1 := s.count c .txCollisions
    if ch.sequencer.attemptsRemain then
      s1.updSeq c fun q => q.wait .backoff (ch.backoffTicks e.src ch.sequencer.attempts)
    else s1.claim c .failCollision

/-! ### The sequencer's timers -/

/-- BACKOFF_EXPIRY (R134): the sequencer returns to DEFER with its active entry and attempt count.
It happens only in BACKOFF (log 2). -/
def execBackoffExpiry (c : Chan) (s : State) : Result :=
  .next (if (s.chan c).sequencer.state = .backoff then s.updSeq c Sequencer.toDefer else s)

/-- BUSY_EXPIRY (R140): the sequencer returns to DEFER. It happens only in BUSY_WAIT (log 2). -/
def execBusyExpiry (c : Chan) (s : State) : Result :=
  .next (if (s.chan c).sequencer.state = .busyWait then s.updSeq c Sequencer.toDefer else s)

/-- The ack timer expires in AWAIT_ACK (R139). -/
def State.ackTimeout (s : State) (c : Chan) : State :=
  let s1 := s.count c .txAckTimeouts
  if (s.chan c).sequencer.attemptsRemain then s1.updSeq c Sequencer.toDefer
  else s1.claim c .failNoAck

/-- TX_ACK_TIMEOUTS (R139): counted; DEFER while attempts remain, else FAIL_NOACK. It happens only in
AWAIT_ACK (log 2). -/
def execTxAckTimeouts (c : Chan) (s : State) : Result :=
  .next (if (s.chan c).sequencer.state = .awaitAck then (s.ackTimeout c).settle else s)

end Sys2Proof.Machine
end

