-- ==== Sys2Proof/Machine/Receive.lean ====
section
/-!
DEFINITION. The receive engines (chapter 3), the sequence table (R73 to R77), the placing of responses
(R80), and the commands of the receive side that are not characters.
-/
namespace Sys2Proof.Machine

/-! ### The sequence table -/

/-- Whether an entry is the one for a channel and source. -/
def SeqEntry.isFor (c : Chan) (src : Byte) (e : SeqEntry) : Bool := e.chan == c && e.src == src

/-- The entry for (channel, source), if any (R75). -/
def seqLookup (t : List SeqEntry) (c : Chan) (src : Byte) : Option SeqEntry :=
  t.find? (SeqEntry.isFor c src)

/-- The table with the entry for (channel, source) holding `seq` at the most-recent end: a hit, an
update, or an insert, which removes the least-recent entry of a full table (R74 to R76). -/
def seqRecord (t : List SeqEntry) (c : Chan) (src : Byte) (seq : BitVec 3) : List SeqEntry :=
  let others := t.filter fun e => !e.isFor c src
  (if others.length < Config.seqCapacity then others else others.drop 1) ++ [⟨c, src, seq⟩]

/-- Whether the lookup of a frame is a hit (R75). -/
def State.seqHit (s : State) (c : Chan) (src : Byte) (seq : BitVec 3) : Bool :=
  match seqLookup s.seqTable c src with
  | some e => e.seq == seq
  | none => false

/-- The sequence table with (channel, source) recorded. -/
def State.recordSeq (s : State) (c : Chan) (src : Byte) (seq : BitVec 3) : State :=
  { s with seqTable := seqRecord s.seqTable c src seq }

/-! ### Responses -/

/-- A response is placed in the channel's slot for a frame (R70, R80): a pending one is replaced and
RESP_DROPPED counts once. The response gap starts (R15). -/
def State.placeResponse (s : State) (c : Chan) (nak : Bool) (e : Engine) : State :=
  let s1 := if (s.chan c).response.isSome then s.count c .respDropped else s
  s1.updChan c fun ch =>
    { ch with response := some ⟨nak, e.src, ctrlSeq e.ctrl, bitTicks ch.charBits⟩ }

/-- A pending response is dropped and counted (R84, R82). -/
def State.dropResponse (s : State) (c : Chan) : State :=
  if (s.chan c).response.isSome then
    (s.count c .respDropped).updChan c fun ch => { ch with response := none }
  else s

/-! ### Rejects -/

/-- The filling chain, if the engine holds one, is released (R26, R62). -/
def State.dropFilling (s : State) (c : Chan) : State :=
  match (s.chan c).engine.room with
  | .storing h => s.release h
  | .none | .noRoom => s

/-- The engine holds no frame; its parser is in a given state. -/
def State.endFrame (s : State) (c : Chan) (p : Parser) : State := s.updEngine c fun _ => .idle p

/-- A frame in flight is rejected: its chain is released, its reason's counter counts, and the frame
ends (R62). -/
def State.rejectFrame (s : State) (c : Chan) (k : Counter) (p : Parser) : State :=
  ((s.dropFilling c).count c k).endFrame c p

/-! ### Header fields -/

/-- Whether some valid station table entry holds an address for a channel (R49). -/
def State.listed (s : State) (c : Chan) (d : Byte) : Bool :=
  s.station.toList.any fun e => e.valid && e.addr == d && e.mask.getLsbD c.val

/-- The class of a DEST: the first of four conditions that holds (R48). -/
def State.classify (s : State) (c : Chan) (d : Byte) : Option AddrClass :=
  let ch := s.chan c
  if ch.hasOwn && d == ch.ownAddr then some .own
  else if d == 0xFF && ch.acceptBroadcast then some .broadcast
  else if s.listed c d then some .listed
  else if ch.promiscuous then some .any
  else none

/-- A marker character is taken as DEST (R48): no class sends the parser to SKIP; a classed DEST of
00h is malformed (R54); otherwise the frame is in flight. -/
def State.takeDest (s : State) (c : Chan) (d : Byte) : State :=
  match s.classify c d with
  | none => s.endFrame c .skip
  | some k =>
    if d = 0 then s.rejectFrame c .rxMalformed .skip
    else
      s.updEngine c fun _ =>
        { Engine.idle .destSeen with cls := k, dest := d, check := crcByte 0xFFFF d }

/-- A well-formed field is taken; a malformed one ends the frame (R53, R54). -/
def State.takeField (s : State) (c : Chan) (ok : Bool) (f : Engine → Engine) : State :=
  if ok then s.updEngine c f else s.rejectFrame c .rxMalformed .skip

/-- The SRC character (R53). -/
def State.takeSrc (s : State) (c : Chan) (b : Byte) : State :=
  s.takeField c (srcOk b) fun e => { e with parser := .src, src := b, check := crcByte e.check b }

/-- The CTRL character (R53). -/
def State.takeCtrl (s : State) (c : Chan) (b : Byte) : State :=
  s.takeField c (ctrlOk b) fun e => { e with parser := .ctrl, ctrl := b, check := crcByte e.check b }

/-- The LEN character (R53, R55): a DATA frame makes a receive request for pages(LEN) pages. -/
def State.takeLen (s : State) (c : Chan) (b : Byte) : State :=
  s.takeField c (lenOk (ctrlKind (s.chan c).engine.ctrl) b) fun e =>
    { e with
      parser := .len, len := b, check := crcByte e.check b
      request := if ctrlKind e.ctrl = .data then some (pagesFor b.toNat) else none }

/-- A payload character (R57): fed through the check register, and stored at chain offset 8 + i,
discarded in NO_ROOM, or latched as d. -/
def State.takePayload (s : State) (c : Chan) (b : Byte) : State :=
  let e := (s.chan c).engine
  let s1 :=
    match e.room with
    | .storing h => s.storeChain h (8 + e.count) b
    | .none | .noRoom => s
  s1.updEngine c fun e =>
    { e with
      parser := .payload, count := e.count + 1, check := crcByte e.check b
      duration := if ctrlKind e.ctrl = .hold then b else e.duration }

/-- The high CHECK character (R58). -/
def State.takeCheckHi (s : State) (c : Chan) (b : Byte) : State :=
  s.updEngine c fun e => { e with parser := .checkHi, checkHi := b }

/-! ### The frame-end decision (section 3.11) -/

/-- Whether the engine is responding to its frame (R66). -/
def Channel.responding (ch : Channel) : Bool :=
  ctrlAr ch.engine.ctrl && ch.engine.cls == .own && ch.autoRespond

/-- The received frame queue entry of an engine's frame (R69, R90). -/
def State.entryOf (s : State) (c : Chan) (h : Page) : RxEntry :=
  let e := (s.chan c).engine
  ⟨h, c, e.cls, e.dest, e.src, e.ctrl, e.len, s.arrival⟩

/-- The append of an accepted frame to the received frame queue, with its header area (R69 steps 1
and 2, R91). -/
def State.appendFrame (s : State) (c : Chan) (h : Page) : State :=
  let e := s.entryOf c h
  ({ s with rfq := s.rfq ++ [e], arrival := s.arrival + 1 }.setOwner h .queuedRx).storeBytes h 0
    (receiveHeader e)

/-- A response if the engine is responding. -/
def State.respondIf (s : State) (c : Chan) (b nak : Bool) (e : Engine) : State :=
  if b then s.placeResponse c nak e else s

/-- Step 4 of the decision, for a DATA frame whose check passed (R66 to R69). -/
def State.dataEnd (s : State) (c : Chan) : State :=
  let e := (s.chan c).engine
  let resp := (s.chan c).responding
  if resp && s.seqHit c e.src (ctrlSeq e.ctrl) then
    (((s.recordSeq c e.src (ctrlSeq e.ctrl)).dropFilling c).count c .rxDuplicate).placeResponse
      c false e
  else
    match e.room with
    | .none | .noRoom => (s.count c .rxNoRoom).respondIf c resp true e
    | .storing h =>
      if s.rfq.length < Config.rfqCapacity then
        let s1 := (s.appendFrame c h).count c .rxFrames
        let s2 := if resp then s1.recordSeq c e.src (ctrlSeq e.ctrl) else s1
        s2.respondIf c resp false e
      else (((s.release h).count c .rxQFull).raise .rfqFull).respondIf c resp true e

/-- A HOLD is delivered to the hold timer (R158): d from 1 to 255 sets it and raises HOLD_IN, 0
stops it. -/
def State.holdDelivered (s : State) (c : Chan) (d : Byte) : State :=
  if d = 0 then s.updChan c fun ch => { ch with holdTimer := none }
  else (s.updChan c fun ch => { ch with holdTimer := some (holdTicks d) }).raise .holdIn

/-- What the frame-end decision does with a frame whose check passed (R64 to R69). -/
def State.decide (s : State) (c : Chan) : State :=
  let ch := s.chan c
  let e := ch.engine
  match ctrlKind e.ctrl with
  | .data => s.dataEnd c
  | .ack => if e.cls = .own then s.deliver c false e.src (ctrlSeq e.ctrl) else s
  | .nak => if e.cls = .own then s.deliver c true e.src (ctrlSeq e.ctrl) else s
  | .hold => if e.cls ≠ .any ∧ ch.holdHonour then s.holdDelivered c e.duration else s

/-- Frame end: the low CHECK character without a framing error. The parser is in CHECK_LO while the
decision is taken and then goes to HUNT (R58, R63). -/
def State.frameEnd (s : State) (c : Chan) (lo : Byte) : State :=
  let s1 := s.updEngine c fun e => { e with parser := .checkLo }
  let e := (s.chan c).engine
  if e.check = half e.checkHi lo then (s1.decide c).endFrame c .hunt
  else s1.rejectFrame c .rxCheck .hunt

/-- A marker-0 character without a framing error is taken as the next field (section 3.2). -/
def State.takeNext (s : State) (c : Chan) (b : Byte) : State :=
  let e := (s.chan c).engine
  match e.parser with
  | .hunt | .skip | .checkLo => s
  | .destSeen => s.takeSrc c b
  | .src => s.takeCtrl c b
  | .ctrl => s.takeLen c b
  | .len | .payload => if e.count < e.len.toNat then s.takePayload c b else s.takeCheckHi c b
  | .checkHi => s.frameEnd c b

/-- The engine takes a character, by its parser state, marker and framing-error mark (R46, R47, R60,
R61). In ABORTING and OFF it takes none (R45, R72). -/
def State.engineTake (s : State) (c : Chan) (x : Character) : State :=
  if (s.chan c).inService then
    let p := (s.chan c).engine.parser
    if x.framing then
      if p.inFlight then s.rejectFrame c .rxFraming .hunt
      else if p = .skip then s.endFrame c .hunt
      else s
    else if x.marker then
      if p.inFlight then (s.rejectFrame c .rxTrunc .hunt).takeDest c x.data else s.takeDest c x.data
    else s.takeNext c x.data
  else s

/-! ### Commands -/

/-- RECEIVE_REQUEST_SERVED (R28, R30): the allocator serves one waiting receive request. -/
def execReceiveRequestServed (s : State) : Result := .next s.serveOne.settle

/-- Line idle time as it must stand for an event that depends on it to have come (log 3). -/
def Channel.idleAtLeast (n : Nat) (ch : Channel) : Channel := { ch with idle := max ch.idle n }

/-- GAP_EXPIRY (R59): the frame in flight is rejected as GAP. It happens only while line idle time
is counting and a frame is in flight (log 2, log 3). -/
def execGapExpiry (c : Chan) (s : State) : Result :=
  .next <|
    let ch := s.chan c
    if ch.inService ∧ ch.idleRunning ∧ ch.engine.parser.inFlight then
      (((s.updChan c (Channel.idleAtLeast (ch.gapLimit + 1))).serveFor c 4).rejectFrame
        c .rxGap .hunt).settle
    else s

/-- SKIP_GAP_EXIT (R47): the parser goes from SKIP to HUNT and nothing is counted. It happens only
in SKIP while line idle time is counting (log 2, log 3). -/
def execSkipGapExit (c : Chan) (s : State) : Result :=
  .next <|
    let ch := s.chan c
    if ch.inService ∧ ch.idleRunning ∧ ch.engine.parser = .skip then
      ((s.updChan c (Channel.idleAtLeast (ch.gapLimit + 1))).endFrame c .hunt).settle
    else s

/-- HOLD_TIMER_EXPIRY (R158): the timer stops and raises nothing. -/
def execHoldTimerExpiry (c : Chan) (s : State) : Result :=
  .next (s.updChan c fun ch => { ch with holdTimer := none })

end Sys2Proof.Machine
end

