-- ==== Sys2Proof/Machine/Flow.lean ====
section
/-!
DEFINITION. Flow slots: how a flow frame ends (R155, R156) and the flow timers (R153, R156).
-/
namespace Sys2Proof.Machine

/-- A flow frame has ended cleanly, as it acts on its channel (R155). `low` is the monitor's state. -/
def Channel.flowCleanIn (low : Bool) (f : FlowFrame) (ch : Channel) : Channel :=
  match f.resume, low with
  | false, true =>
    { ch with flow := none, holdOutstanding := true, refresh := some (holdTicks f.d) }
  | false, false => { ch with flow := some (.fresh true), holdOutstanding := true }
  | true, false => { ch with flow := none, holdOutstanding := false }
  | true, true =>
    { ch with
      flow := if ch.holdSend && ch.hasOwn then some (.fresh false) else none
      holdOutstanding := false }

/-- The clean end of a flow frame is reported (R155): HOLD_OUT is raised. -/
def State.flowClean (s : State) (c : Chan) : State :=
  match (s.chan c).flow with
  | none => s
  | some f => (s.updChan c (Channel.flowCleanIn s.poolIsLow f)).raise .holdOut

/-- A flow frame is dropped: the slot empties and FLOW_DROPPED counts (R156, R161). -/
def State.dropFlow (s : State) (c : Chan) : State :=
  (s.count c .flowDropped).updChan c fun ch => { ch with flow := none }

/-- A flow frame's collision is reported (R156). -/
def State.flowCollision (s : State) (c : Chan) : State :=
  match (s.chan c).flow with
  | none => s
  | some f =>
    match f.resume, s.poolIsLow with
    | false, false =>
      s.updChan c fun ch =>
        { ch with flow := if ch.holdOutstanding then some (.fresh true) else none }
    | true, true => s.updChan c fun ch => { ch with flow := some (.fresh false) }
    | _, _ =>
      if f.attempts < 1 + f.limit then
        s.updChan c fun ch =>
          { ch with
            flow := some { f with phase := .backoff, timer := some (ch.backoffTicks f.own f.attempts) } }
      else s.dropFlow c

/-- REFRESH_EXPIRY (R153): the timer stops and a new HOLD is placed in the slot. It happens only
while the refresh timer runs (log 2). -/
def execRefreshExpiry (c : Chan) (s : State) : Result :=
  .next <|
    if (s.chan c).refresh.isSome then
      s.updChan c fun ch => { ch with refresh := none, flow := some (.fresh false) }
    else s

/-- FLOW_BACKOFF_EXPIRY (R156): the phase becomes WAITING. It happens only in phase BACKOFF
(log 2). -/
def execFlowBackoffExpiry (c : Chan) (s : State) : Result :=
  .next <|
    match (s.chan c).flow with
    | none => s
    | some f =>
      if f.phase = .backoff then
        s.updChan c fun ch => { ch with flow := some { f with phase := .waiting, timer := none } }
      else s

end Sys2Proof.Machine
end

