-- ==== Sys2Proof/Machine/Line.lean ====
section
/-!
DEFINITION. The receiver (R3 to R5) and the line transmitter (R124 to R132): start bits, characters and
where they go, the readback comparator, the starts of frames and the ends of sending.
-/
namespace Sys2Proof.Machine

/-! ### The receiver -/

/-- The low period in progress at a start bit: the one the receiver has measured since the falling
edge, or one that began half a bit time back (R4). -/
def Channel.startLow (ch : Channel) : LowPeriod :=
  match ch.rx, ch.lowPeriod with
  | .candidate, some l => l
  | _, _ => ⟨startSample, false⟩

/-- A start bit is detected (R3, R5, R84): line idle time is held at 0 and a pending response is
dropped. -/
def State.startBit (s : State) (c : Chan) : State :=
  (s.updChan c fun ch =>
    { ch with
      rx := .inCharacter, rxTicks := startSample, rxBits := 0
      rxd := false, lowPeriod := some ch.startLow
      idle := 0, idleRunning := false, idlePhase := 0 }).dropResponse c

/-- Whether the receiver can detect a start bit: it samples, and looks for a falling edge or follows a
candidate (R3). -/
def Channel.awaitsStart (ch : Channel) : Bool :=
  ch.mode != .off && (ch.rx == .looking || ch.rx == .candidate)

/-- START_BIT_DETECTED (R3, R84): only where the receiver can detect one (log 2). -/
def execStartBitDetected (c : Chan) (s : State) : Result :=
  .next (if (s.chan c).awaitsStart then (s.startBit c).settle else s)

/-- LINE_SAMPLED_HIGH (R3 to R5): the receiver that waits for it looks for a falling edge again, the
low period ends and line idle time counts from 0. -/
def execLineSampledHigh (c : Chan) (s : State) : Result :=
  .next <|
    if (s.chan c).mode ≠ .off ∧ (s.chan c).rx = .waitHigh then
      s.updChan c fun ch =>
        { ch with
          rx := .looking, rxd := true, lowPeriod := none
          idle := 0, idleRunning := true, idlePhase := 0 }
    else s

/-- How long, in sample ticks, the line has been low at the sampling of a low first stop bit: from the
last cell of the character that was high (log 19). -/
def lowTicksOf (x : Character) : Nat :=
  let cells :=
    x.marker :: [7, 6, 5, 4, 3, 2, 1, 0].map (fun i => x.data.getLsbD i) ++ [false]
  bitTicks (cells.takeWhile (fun b => !b)).length + 8

/-- The low period after a character that a command names: none if its stop bit was high; otherwise
the one in progress, which is the one of its start bit if every cell was low (R4, log 19). -/
def lowAfter (x : Character) (before : Option LowPeriod) : Option LowPeriod :=
  if x.framing then
    let whole := x.data == 0 && !x.marker
    some ⟨lowTicksOf x, whole && match before with
      | some l => l.raised
      | none => false⟩
  else none

/-- Whether the receiver has come to the first stop bit of a character by sampling, and not by a command
that names the character (R3). -/
def Channel.sampledToStop (ch : Channel) : Bool := stopSample ≤ ch.rxTicks

/-- The low period after a character: the one measured sample by sample where the receiver has come to
the stop bit by sampling (R4), else what the character shows. -/
def Channel.lowPeriodAfter (x : Character) (ch : Channel) : Option LowPeriod :=
  match x.framing && ch.sampledToStop, ch.lowPeriod with
  | true, some l => some l
  | _, before => lowAfter x before

/-- The receiver completes a character (R3, R5): after a framing error it waits for a high line and
line idle time stays held; otherwise it looks for the next edge and line idle time counts from 0. -/
def Channel.received (x : Character) (ch : Channel) : Channel :=
  { ch with
    rx := if x.framing then .waitHigh else .looking
    rxTicks := 0, rxBits := 0
    rxd := !x.framing
    lowPeriod := ch.lowPeriodAfter x
    idle := 0, idleRunning := !x.framing, idlePhase := 0 }

/-- The low period in which LINE_FAULT can be raised: one in progress, in which it has not been raised,
on a receiver past the start bit that began it or waiting for a high line (R4, R84). -/
def Channel.faultable (ch : Channel) : Option LowPeriod :=
  if ch.mode != .off && (ch.rx == .inCharacter || ch.rx == .waitHigh) then
    ch.lowPeriod.filter fun l => !l.raised
  else none

/-- LINE_FAULT (R4): the low period in progress reaches 2 x C bit times and LINE_FAULT is raised, once
in it. Where none is in progress it does not happen (log 2, log 3). -/
def execLineFault (c : Chan) (s : State) : Result :=
  .next <|
    match (s.chan c).faultable with
    | some l =>
      (s.updChan c fun ch =>
        { ch with lowPeriod := some ⟨max l.ticks (bitTicks (2 * ch.charBits)), true⟩ }).raise .lineFault
    | none => s

/-! ### The readback comparator -/

/-- A line transmitter changed. -/
def State.setLine (s : State) (c : Chan) (l : LineTx) : State :=
  s.updChan c fun ch => { ch with lineTx := l }

/-- The line transmitter at the moment of a comparator's test that a command names without samples:
past the middle of the first stop-bit cell (R127; log 3) of the character being sent, or of the next
one if the readback of that one has completed already (log 9). -/
def Sending.atTest (f : Sending) : Sending :=
  if f.readBack ∧ f.index + 1 < f.chars.length then
    { f with index := f.index + 1, ticks := stopSample + 1, readBack := false }
  else { f with ticks := max f.ticks (stopSample + 1) }

/-- Whether a character read back matches the one being sent: data bits and marker bit equal, no
framing error (R127). -/
def Sending.matchesChar (f : Sending) (x : Character) : Bool :=
  !x.framing && f.chars[f.index]? == some x.data && x.marker == (f.index == 0)

/-- The clean end is reported to the frame's source (R83, R128, R135, R155). -/
def State.reportClean (s : State) (c : Chan) : TxKind → State
  | .response => s
  | .flow => s.flowClean c
  | .data => s.attemptClean c

/-- The character being sent is compared with a character read back (R127, R128): a mismatch is a
collision; the match of the last character ends the frame cleanly. In ABORTING nothing is judged
(R169), nor after the verdict. -/
def State.readback (s : State) (c : Chan) (f0 : Sending) (x : Character) : State :=
  if (s.chan c).mode = .aborting ∨ f0.verdict ≠ .pending then s
  else
    let f := { f0 with readBack := true }
    if f.matchesChar x then
      if f.index + 1 = f.chars.length then
        (s.setLine c (.sending { f with verdict := .clean })).reportClean c f.kind
      else s.setLine c (.sending f)
    else s.setLine c (.sending { f with verdict := .collision })

/-- The receiver completes a character, which goes to the readback comparator while the line
transmitter is SENDING and to the receive engine otherwise (R46). A sampled one is compared with the
character being sent as it stands; the moment of one that a command names is log 3's and log 9's. -/
def State.completeCharacter (s : State) (c : Chan) (x : Character) : State :=
  let s1 := s.updChan c (Channel.received x)
  match (s.chan c).lineTx with
  | .quiet => s1.engineTake c x
  | .sending f => s1.readback c (if (s.chan c).sampledToStop then f else f.atTest) x

/-- A waiting receive request of the frame in flight is served before the frame's next character
completes (R28; log 10). -/
def State.beforeCharacter (s : State) (c : Chan) : State :=
  if (s.chan c).inService && (s.chan c).lineTx == .quiet then s.serveFor c 4 else s

/-- A receiver within a character completes it. -/
def State.receiveCharacter (s : State) (c : Chan) (x : Character) : State :=
  let s1 := s.beforeCharacter c
  if (s1.chan c).mode ≠ .off then (s1.completeCharacter c x).settle else s1

/-- A character on the line of channel c. Its start bit, if not seen before, comes first (log 7). A
receiver that waits for a high line, or does not sample, takes no character (R3). -/
def State.lineCharacter (s : State) (c : Chan) (x : Character) : State :=
  if (s.chan c).mode ≠ .off then
    match (s.chan c).rx with
    | .waitHigh => s
    | .inCharacter => s.receiveCharacter c x
    | .looking | .candidate =>
      let s1 := (s.startBit c).settle
      if (s1.chan c).mode ≠ .off then s1.receiveCharacter c x else s1
  else s

/-- CHARACTER_RECEIVED (R46): the receiver completes a character (log 8). -/
def execCharacterReceived (c : Chan) (x : Character) (s : State) : Result :=
  .next (s.lineCharacter c x)

/-- READBACK_CHARACTER (R127): the receiver completes a character while the line transmitter is
SENDING (log 8). -/
def execReadbackCharacter (c : Chan) (x : Character) (s : State) : Result :=
  .next (s.lineCharacter c x)

/-- MISSING_READBACK (R127): no character has completed for the one being sent, a collision. It
happens only while a frame on the line is without a verdict, where a readback is still to come (log 2),
and not in ABORTING (R169). Its moment is log 3's and log 9's. -/
def execMissingReadback (c : Chan) (s : State) : Result :=
  .next <|
    match (s.chan c).lineTx with
    | .quiet => s
    | .sending f =>
      if (s.chan c).mode = .aborting ∨ f.verdict ≠ .pending ∨ f.atTest.readBack then s
      else s.setLine c (.sending { f.atTest with verdict := .collision })

/-! ### Starts of frames -/

/-- The line transmitter starts a frame: SENDING with the source's kind (R126). It starts at once, also
between two sample ticks, and its cells are counted on the channel's sample ticks, so that its first cell
is up to a tick short of a bit time: the model's choice (DESIGN CHOICE, log 27). -/
def State.startFrame (s : State) (c : Chan) (k : TxKind) (chars : List Byte) : State :=
  s.setLine c (.sending ⟨k, chars, 0, 0, false, .pending⟩)

/-- Whether the response slot can be selected once its gap has passed (R81, R125). -/
def Channel.responseReady (ch : Channel) : Bool :=
  ch.inService && ch.lineTx == .quiet && ch.response.isSome

/-- Whether the slot holds a flow frame in WAITING. -/
def Channel.flowWaiting (ch : Channel) : Bool :=
  match ch.flow with
  | some f => f.phase == .waiting
  | none => false

/-- Whether the flow slot can be selected once line idle time has reached S: the highest-ranking
source that is ready then (R125, R154). -/
def Channel.flowReady (ch : Channel) : Bool :=
  ch.inService && ch.lineTx == .quiet && ch.response.isNone && ch.flowWaiting &&
    ch.engine.parser == .hunt && ch.idleRunning

/-- Whether the sequencer can be selected once line idle time has reached S (R124, R125). -/
def Channel.dataReady (ch : Channel) : Bool :=
  ch.lineTx == .quiet && ch.response.isNone && !ch.flowWaiting &&
    ch.engine.parser == .hunt && ch.idleRunning && ch.holdTimer.isNone &&
    ch.sequencer.state == .defer && !ch.txq.isEmpty &&
    (ch.mode == .run || (ch.mode == .stopping && ch.headActive))

/-- The characters of a response (R82). -/
def responseChars (own : Byte) (r : Response) : List Byte :=
  withCheck [r.dest, own, packCtrl (if r.nak then .nak else .ack) false r.seq, 0]

/-- The characters of a flow frame (R154). -/
def flowChars (own d : Byte) : List Byte := withCheck [0xFF, own, packCtrl .hold false 0, 1, d]

/-- The characters of a data frame (R132): the header from the queue entry, the payload from chain
offsets 8 to 7 + LEN, then CHECK. -/
def State.dataChars (s : State) (e : TxEntry) : List Byte :=
  withCheck
    ([e.dest, e.src, packCtrl .data e.ar e.seq, e.len] ++ s.chainBytes e.head 8 e.len.toNat)

/-- RESPONSE_START (R82): the pending response leaves the slot and starts, or is dropped without an
own address. It happens only when the response can be selected (log 2, log 3). -/
def execResponseStart (c : Chan) (s : State) : Result :=
  .next <|
    let ch := s.chan c
    match ch.response with
    | none => s
    | some r =>
      if ch.responseReady then
        if ch.hasOwn then
          ((s.updChan c fun ch => { ch with response := none }).startFrame c .response
            (responseChars ch.ownAddr r)).settle
        else (s.dropResponse c).settle
      else s

/-- A flow frame whose attempt starts (R154 steps 2 to 4). -/
def FlowFrame.started (f : FlowFrame) (limit : Nat) (own d : Byte) : FlowFrame :=
  { f with
    phase := .sending, attempts := f.attempts + 1
    limit := if f.attempts = 0 then limit else f.limit
    timer := none, d := d, own := own }

/-- FLOW_FRAME_START (R154): the flow frame's attempt starts, or it is dropped without an own address.
It happens only when the flow slot can be selected (log 2, log 3). -/
def execFlowFrameStart (c : Chan) (s : State) : Result :=
  .next <|
    let ch := s.chan c
    match ch.flow with
    | none => s
    | some f =>
      if ch.flowReady then
        if ch.hasOwn then
          let d := if f.resume then 0 else s.holdDuration
          (s.updChan c fun ch =>
            { (ch.idleAtLeast ch.spacingBits) with
              flow := some (f.started ch.retryLimit ch.ownAddr d) }).startFrame c .flow
            (flowChars ch.ownAddr d)
        else ((s.updChan c fun ch => ch.idleAtLeast ch.spacingBits).dropFlow c).settle
      else s

/-- The sequencer at the start of an attempt (R131): the retry limit is latched at the first. -/
def Sequencer.started (q : Sequencer) (limit : Nat) : Sequencer :=
  { q with
    state := .attempt, attempts := q.attempts + 1
    limit := if q.attempts = 0 then limit else q.limit, timer := none }

/-- The head entry becomes active (R111). -/
def activateHead (q : List TxEntry) : List TxEntry :=
  match q with
  | [] => []
  | e :: es => { e with active := true } :: es

/-- ATTEMPT_START (R131): an attempt starts; at the first the entry becomes active, its chain
ACTIVE_TX(c), and RETRY is latched. It happens only when the sequencer can be selected (log 2,
log 3). -/
def execAttemptStart (c : Chan) (s : State) : Result :=
  .next <|
    let ch := s.chan c
    match ch.txq with
    | [] => s
    | e :: _ =>
      if ch.dataReady then
        let s1 := if ch.sequencer.attempts = 0 then s.setOwner e.head (.activeTx c) else s
        (s1.updChan c fun ch =>
          { (ch.idleAtLeast ch.spacingBits) with
            txq := activateHead ch.txq
            sequencer := ch.sequencer.started ch.retryLimit }).startFrame c .data (s.dataChars e)
      else s

/-! ### Ends of sending -/

/-- LINE_TRANSMITTER_QUIET (R126): after a clean end the line transmitter releases DEn and becomes
QUIET. On an ABORTING channel ABORT_COMPLETE does this (R171; log 26). -/
def execLineTransmitterQuiet (c : Chan) (s : State) : Result :=
  .next <|
    match (s.chan c).lineTx with
    | .quiet => s
    | .sending f =>
      if f.verdict = .clean ∧ (s.chan c).mode ≠ .aborting then (s.setLine c .quiet).settle else s

/-- A collision is reported to the frame's source (R85, R133, R156). -/
def State.reportCollision (s : State) (c : Chan) : TxKind → State
  | .response => s.count c .respDropped
  | .flow => s.flowCollision c
  | .data => s.attemptCollision c

/-- COLLISION_REPORTED (R129): DEn is released, the line transmitter becomes QUIET and reports. On an
ABORTING channel ABORT_COMPLETE takes its place (R130, R171; log 26). -/
def execCollisionReported (c : Chan) (s : State) : Result :=
  .next <|
    match (s.chan c).lineTx with
    | .quiet => s
    | .sending f =>
      if f.verdict = .collision ∧ (s.chan c).mode ≠ .aborting then
        ((s.setLine c .quiet).reportCollision c f.kind).settle
      else s

/-- A channel in ABORTING whose line transmitter becomes QUIET (R171): an entry in ATTEMPT completes
ABORTED, the channel enters OFF raising CHAN_OFF, and ABORT completes with OK. -/
def State.abortFinish (s : State) (c : Chan) : State :=
  let s1 := s.setLine c .quiet
  let s2 := if (s.chan c).sequencer.state = .attempt then s1.completeAborted c else s1
  (({ (s2.updChan c Channel.toOff) with busy := none }.raise .chanOff).done .ok)

/-- ABORT_COMPLETE (R171): only on an ABORTING channel (log 2). -/
def execAbortComplete (c : Chan) (s : State) : Result :=
  .next (if (s.chan c).mode = .aborting then (s.abortFinish c).settle else s)

end Sys2Proof.Machine
end

