-- ==== Sys2Proof/Machine/Clock.lean ====
section
/-!
DEFINITION. Time: one REFCLK period of every channel (R2 to R5, R16, R126), and the part's own events
that are due (R3, R4, R16, R125 to R130). The step with an empty queue uses both (log 1, log 4).
-/
namespace Sys2Proof.Machine

/-! ### The receiver's samples -/

/-- The low period after a sample: it begins at a low sample, grows while the line stays low and ends
at the first high one (R4). -/
def Channel.lowSampled (ch : Channel) : Option LowPeriod :=
  match ch.rxd, ch.lowPeriod with
  | true, _ => none
  | false, none => some ⟨0, false⟩
  | false, some l => some { l with ticks := l.ticks + 1 }

/-- Whether a sample `t` ticks after the falling edge is that of a data bit or of the marker bit, in the
middle of its cell (R3). -/
def isBitSample (t : Nat) : Bool := t % Config.ticksPerBit == startSample && t < stopSample

/-- The receiver after one sample tick (R3): a low sample is a falling edge where it looks for one; in
the middle of the start bit's cell a high line makes it a false start; within a character the data and
marker bits are sampled in the middle of their cells. A start bit, a completed character and the return
of a high line are then due as events (dueTable). -/
def Channel.tickReceiver (ch : Channel) : Channel :=
  match ch.rx with
  | .looking => if ch.rxd then ch else { ch with rx := .candidate, rxTicks := 0 }
  | .candidate =>
    if ch.rxTicks + 1 < startSample ∨ ch.rxd = false then { ch with rxTicks := ch.rxTicks + 1 }
    else { ch with rx := .looking, rxTicks := 0 }
  | .inCharacter =>
    { ch with
      rxTicks := ch.rxTicks + 1
      rxBits :=
        if isBitSample (ch.rxTicks + 1) then BitVec.ofBool ch.rxd ++ ch.rxBits.extractLsb' 1 8
        else ch.rxBits }
  | .waitHigh => ch

/-- One sample of the receive line: the low period and the receiver (R3, R4). -/
def Channel.tickSample (ch : Channel) : Channel :=
  { ch.tickReceiver with lowPeriod := ch.lowSampled }

/-! ### The channel's clock -/

/-- A running timer after one sample tick. -/
def tickTimer (t : Option Nat) : Option Nat := t.map fun n => n - 1

/-- Line idle time after one sample tick: up by one at the end of each bit time, to 1023 (R5). -/
def Channel.tickIdle (ch : Channel) : Channel :=
  if ch.idleRunning then
    if ch.idlePhase + 1 < Config.ticksPerBit then { ch with idlePhase := ch.idlePhase + 1 }
    else { ch with idlePhase := 0, idle := min Config.idleMax (ch.idle + 1) }
  else ch

/-- The sample ticks a character takes (section 1.1). -/
def Channel.charTicks (ch : Channel) : Nat := bitTicks ch.charBits

/-- Whether the character being sent is the last the line transmitter sends: the frame has its verdict
or is cut by ABORT (R126, R129, R130). -/
def Channel.lastCharacter (ch : Channel) (f : Sending) : Bool :=
  f.verdict != .pending || ch.mode == .aborting || f.chars.length ≤ f.index + 1

/-- The line transmitter after one sample tick: characters follow one another with no gap (R1, R126);
at the end of the last one it stays for the event that makes it QUIET. -/
def Channel.tickLine (ch : Channel) : Channel :=
  match ch.lineTx with
  | .quiet => ch
  | .sending f =>
    if f.ticks + 1 < ch.charTicks then { ch with lineTx := .sending { f with ticks := f.ticks + 1 } }
    else if ch.lastCharacter f then { ch with lineTx := .sending { f with ticks := ch.charTicks } }
    else { ch with lineTx := .sending { f with index := f.index + 1, ticks := 0, readBack := false } }

/-- The timers of a channel after one sample tick (R16). -/
def Channel.tickTimers (ch : Channel) : Channel :=
  { ch with
    response := ch.response.map fun r => { r with gap := r.gap - 1 }
    sequencer := { ch.sequencer with timer := tickTimer ch.sequencer.timer }
    flow := ch.flow.map fun f => { f with timer := tickTimer f.timer }
    refresh := tickTimer ch.refresh
    holdTimer := tickTimer ch.holdTimer }

/-- A channel after one sample tick. -/
def Channel.sampleTick (ch : Channel) : Channel := ch.tickSample.tickIdle.tickLine.tickTimers

/-- A channel after one REFCLK period: a sample tick every DIV + 1 periods under the latched DIV; none
in OFF (R2, R3). -/
def Channel.clock (ch : Channel) : Channel :=
  if ch.mode = .off then ch
  else if ch.prescale < ch.latchedDiv.toNat then { ch with prescale := ch.prescale + 1 }
  else { ch with prescale := 0 }.sampleTick

/-- The level of RXDc in the coming REFCLK period: what the segment puts there, and on a segment of
which nothing is said, what the part itself sends, which it hears, high otherwise (log 6). -/
def State.rxdNext (s : State) (c : Chan) : Bool :=
  match s.rxdIn with
  | [] => s.txd c
  | w :: _ => w.getLsbD c.val

/-- One REFCLK period of channel c: the receive line takes its level, and the channel its period. -/
def State.clockChan (s : State) (c : Chan) : Channel :=
  { s.chan c with rxd := s.rxdNext c }.clock

/-- Whether RESET# is low in the coming REFCLK period: it goes low with its input, and stays low until
PIN_RESET, its release (R191). -/
def State.resetNext (s : State) : Bool := s.resetLow || s.resetIn.head? == some false

/-- One REFCLK period. -/
def State.advance (s : State) : State :=
  { s with
    resetLow := s.resetNext
    resetIn := s.resetIn.tail
    rxdIn := s.rxdIn.tail
    chans := ⟨s.clockChan 0, s.clockChan 1, s.clockChan 2, s.clockChan 3⟩ }

/-! ### Events that are due -/

/-- Whether line idle time exceeds the gap limit (R47, R59). -/
def Channel.gapPassed (ch : Channel) : Bool :=
  ch.inService && ch.idleRunning && ch.gapLimit < ch.idle

/-- Whether a candidate start bit was still low in the middle of its cell (R3). -/
def Channel.startDue (ch : Channel) : Bool := ch.rx == .candidate && startSample ≤ ch.rxTicks

/-- Whether the receiver has sampled the first stop bit of a character (R3). -/
def Channel.characterDue (ch : Channel) : Bool := ch.rx == .inCharacter && stopSample ≤ ch.rxTicks

/-- The event of a completed character: it goes to the comparator while the line transmitter is SENDING
and to the receive engine otherwise (R46). -/
def Channel.characterEvent (c : Chan) (ch : Channel) : Instr :=
  match ch.lineTx with
  | .quiet => .characterReceived c ch.assembled
  | .sending _ => .readbackCharacter c ch.assembled

/-- Whether a receiver that waits for a high line has sampled one, at this sample tick (R3). -/
def Channel.highDue (ch : Channel) : Bool := ch.rx == .waitHigh && ch.rxd && ch.prescale == 0

/-- Whether a low period has reached 2 x C bit times with no LINE_FAULT raised in it (R4). -/
def Channel.faultDue (ch : Channel) : Bool :=
  match ch.faultable with
  | some l => bitTicks (2 * ch.charBits) ≤ l.ticks
  | none => false

/-- Whether the middle of the first stop-bit cell of the character being sent has passed with no
readback completed for it (R127): one tick after it, at which a character in step completes (log 18). -/
def Channel.readbackMissed (ch : Channel) : Bool :=
  match ch.lineTx with
  | .quiet => false
  | .sending f =>
    ch.mode != .aborting && f.verdict == .pending && !f.readBack && stopSample < f.ticks

/-- Whether the line transmitter's last character has ended with a given verdict (R126, R129). -/
def Channel.endedWith (v : Verdict) (ch : Channel) : Bool :=
  match ch.lineTx with
  | .quiet => false
  | .sending f => ch.mode != .aborting && f.verdict == v && ch.charTicks ≤ f.ticks

/-- Whether an ABORTING channel's line transmitter is QUIET or has ended its character (R171). -/
def Channel.abortDue (ch : Channel) : Bool :=
  ch.mode == .aborting &&
    match ch.lineTx with
    | .quiet => true
    | .sending f => ch.charTicks ≤ f.ticks

/-- Whether the flow slot's backoff timer has run out (R156). -/
def Channel.flowBackoffDue (ch : Channel) : Bool :=
  match ch.flow with
  | some f => f.phase == .backoff && f.timer == some 0
  | none => false

/-- Whether the response gap has passed (R81). -/
def Channel.gapOver (ch : Channel) : Bool :=
  match ch.response with
  | some r => r.gap == 0
  | none => false

/-- The events of channel c that are due, each with its condition, in the order in which the model
takes them (log 11). -/
def Channel.dueTable (c : Chan) (ch : Channel) : List (Bool × Instr) :=
  let seqDue := ch.sequencer.timer == some 0
  [(ch.startDue, .startBitDetected c),
   (ch.characterDue, ch.characterEvent c),
   (ch.highDue, .lineSampledHigh c),
   (ch.faultDue, .lineFault c),
   (ch.gapPassed && ch.engine.parser.inFlight, .gapExpiry c),
   (ch.gapPassed && ch.engine.parser == .skip, .skipGapExit c),
   (ch.readbackMissed, .missingReadback c),
   (ch.endedWith .clean, .lineTransmitterQuiet c),
   (ch.endedWith .collision, .collisionReported c),
   (ch.abortDue, .abortComplete c),
   (ch.holdTimer == some 0, .holdTimerExpiry c),
   (ch.sequencer.state == .backoff && seqDue, .backoffExpiry c),
   (ch.sequencer.state == .awaitAck && seqDue, .txAckTimeouts c),
   (ch.sequencer.state == .busyWait && seqDue, .busyExpiry c),
   (ch.refresh == some 0, .refreshExpiry c),
   (ch.flowBackoffDue, .flowBackoffExpiry c),
   (ch.responseReady && ch.gapOver, .responseStart c),
   (ch.flowReady && ch.spacingBits ≤ ch.idle, .flowFrameStart c),
   (ch.dataReady && ch.spacingBits ≤ ch.idle, .attemptStart c)]

/-- The event of channel c that is due, if any. -/
def Channel.due (c : Chan) (ch : Channel) : Option Instr :=
  if ch.mode = .off then none
  else ((ch.dueTable c).find? fun x => x.1).map fun x => x.2

/-- Whether RESET#, which is low, goes high (R191). -/
def State.releaseDue (s : State) : Bool := s.resetLow && s.resetIn.head? == some true

/-- The event that is due, if any: the release of RESET#, then a waiting receive request, then those of
the channels in number order (log 11). -/
def State.dueEvent (s : State) : Option Instr :=
  if s.releaseDue then some .pinReset
  else if s.chans.any fun ch => ch.engine.request.isSome then some .receiveRequestServed
  else [0, 1, 2, 3].findSome? fun c => (s.chan c).due c

end Sys2Proof.Machine
end

