-- ==== Sys2Proof/WellFormed.lean ====
section
/-!
DEFINITION. Which commands are well formed: a host access whose offset has a row of its own in the
table (a strobe, EVENT, DATA) is spelled with that row, not as a plain register access.
-/
namespace Sys2Proof

/-- Offsets whose write has a row of its own: EVENT, DATA and the strobes (R179, section 10.3). -/
def Offset.writeHasOwnRow (off : Offset) : Bool :=
  off == 0x05 || off == 0x06 || off == 0x17 || 0x30 ≤ off.toNat

/-- The offset whose read has a row of its own: DATA (R36). -/
def Offset.readHasOwnRow (off : Offset) : Bool := off == 0x17

/-- A command is well formed unless it spells an access with the wrong row. -/
def Instr.wellFormed : Instr → Bool
  | .registerWrite off _ => !off.writeHasOwnRow
  | .lowByteReadSnapshot off => !off.readHasOwnRow
  | .alloc | .release | .seek | .take | .submit | .cancel | .flush | .popdone => true
  | .enable | .disable | .abort | .clearseq | .stwrite | .stread | .counter | .srst => true
  | .dataRead | .dataWrite _ | .eventWrite _ _ | .pinReset => true
  | .characterReceived _ _ | .receiveRequestServed | .gapExpiry _ | .skipGapExit _ => true
  | .lineFault _ | .responseStart _ | .flowFrameStart _ | .attemptStart _ => true
  | .readbackCharacter _ _ | .missingReadback _ | .lineTransmitterQuiet _ => true
  | .collisionReported _ | .abortComplete _ | .backoffExpiry _ | .txAckTimeouts _ => true
  | .busyExpiry _ | .holdTimerExpiry _ | .refreshExpiry _ | .flowBackoffExpiry _ => true
  | .startBitDetected _ | .lineSampledHigh _ => true

end Sys2Proof
end

