-- ==== Sys2Proof/Decode.lean ====
section
/-!
DEFINITION. From outside to a command. The table gives its rows no bits, so no word spells a
command; a bus access does, by its signals, its offset and its byte (R178).
-/
namespace Sys2Proof

/-- The command a table word spells: no row of spec/opcode_table.json has bits. -/
def decodeTableWord (_nbits _w : Nat) : Option Instr := none

/-- The strobe at an offset of 30h to 3Fh, in the order of the strobe table of section 10.3. -/
def strobeOf (off : Offset) : Option Instr :=
  match off.toNat with
  | 0x30 => some .alloc
  | 0x31 => some .release
  | 0x32 => some .seek
  | 0x33 => some .take
  | 0x34 => some .submit
  | 0x35 => some .cancel
  | 0x36 => some .flush
  | 0x37 => some .popdone
  | 0x38 => some .enable
  | 0x39 => some .disable
  | 0x3A => some .abort
  | 0x3B => some .clearseq
  | 0x3C => some .stwrite
  | 0x3D => some .stread
  | 0x3E => some .counter
  | 0x3F => some .srst
  | _ => none

/-- The command of a host write (R178, R179). -/
def writeCommand (off : Offset) (v : Byte) : Instr :=
  match strobeOf off with
  | some i => i
  | none =>
    if off == 0x05 then .eventWrite false v
    else if off == 0x06 then .eventWrite true v
    else if off == 0x17 then .dataWrite v
    else .registerWrite off v

/-- The command of a host read (R178, R179). -/
def readCommand (off : Offset) : Instr :=
  if off == 0x17 then .dataRead else .lowByteReadSnapshot off

/-- The bus access that RESET#, CS#, RD# and WR# make, given as levels (true is high, inactive): an
access is taken when CS# is low and exactly one of RD# and WR# is low (R178) and RESET# is high (R191);
otherwise none is. -/
def decodeBus (resetN csN rdN wrN : Bool) (a : Offset) (d : Byte) : Option Instr :=
  match resetN, csN, rdN, wrN with
  | true, false, false, true => some (readCommand a)
  | true, false, true, false => some (writeCommand a d)
  | _, _, _, _ => none

end Sys2Proof
end

