-- ==== Sys2Proof/Machine/ChannelCommands.lean ====
section
/-!
DEFINITION. The host's commands over channels: ENABLE (R164), DISABLE (R165), ABORT (R168, R169).
-/
namespace Sys2Proof.Machine

/-- A channel enabled (R164): DIV and the stop-bit setting latched, the receiver sampling, line idle
time and line-fault measurement starting from the level of the line (R4, R5; log 6). -/
def Channel.enabled (ch : Channel) : Channel :=
  Channel.workArrived
    { ch with
      mode := .run, latchedDiv := ch.div, latchedTwoStop := ch.twoStop, prescale := 0
      rx := if ch.rxd then .looking else .waitHigh
      lowPeriod := if ch.rxd then none else some ⟨0, false⟩
      idle := 0, idleRunning := ch.rxd, idlePhase := 0
      engine := .idle .hunt, holdTimer := none }

/-- ENABLE at its strobe (R164). -/
def State.enableBody (s : State) : State :=
  match chanArg (s.argByte 0) with
  | none => s.done .badArg
  | some c =>
    if (s.chan c).mode = .off then (s.updChan c Channel.enabled).done .ok else s.done .state

/-- ENABLE. -/
def execEnable (s : State) : Result := .next (s.strobe State.enableBody)

/-- DISABLE at its strobe (R165); the channel enters OFF at once if the stopping conditions hold
(R166). -/
def State.disableBody (s : State) : State :=
  match chanArg (s.argByte 0) with
  | none => s.done .badArg
  | some c =>
    if (s.chan c).mode = .run then
      ((s.updChan c fun ch => { ch with mode := .stopping }).done .ok).settle
    else s.done .state

/-- DISABLE. -/
def execDisable (s : State) : Result := .next (s.strobe State.disableBody)

/-- What ABORT does to its channel at the strobe, but for the chains (R168): ABORTING, slots emptied,
flag cleared, timers stopped. -/
def Channel.aborted (ch : Channel) : Channel :=
  { ch with
    mode := .aborting, response := none, flow := none, holdOutstanding := false, refresh := none
    holdTimer := none }

/-- Whether ABORT completes the active entry at once (R169): every state with an active entry but
ATTEMPT. -/
def Channel.abortsAtOnce (ch : Channel) : Bool :=
  match ch.sequencer.state with
  | .backoff | .awaitAck | .busyWait | .completeWait => true
  | .defer => ch.headActive
  | .idle | .attempt => false

/-- ABORT of a channel in RUN or STOPPING, up to its line transmitter (R72, R168 to R170): the frame
in flight is ended without a count before the sequencer is dealt with (log 13). -/
def State.abortStart (s : State) (c : Chan) : State :=
  let s1 := ((s.updChan c Channel.aborted).dropFilling c).endFrame c .hunt
  if (s.chan c).abortsAtOnce then s1.completeAborted c else s1

/-- ABORT at its strobe (R168): at once with a channel OFF or a line transmitter QUIET, otherwise in
progress until ABORT_COMPLETE (R171, R185). -/
def State.abortBody (s : State) : State :=
  match chanArg (s.argByte 0) with
  | none => s.done .badArg
  | some c =>
    if (s.chan c).inService then
      let s1 := s.abortStart c
      if (s.chan c).lineTx = .quiet then (s1.abortFinish c).settle
      else { s1 with busy := some c, cmdStatus := .inProg }.settle
    else s.done .ok

/-- ABORT. -/
def execAbort (s : State) : Result := .next (s.strobe State.abortBody)

end Sys2Proof.Machine
end

