-- ==== Sys2Proof/Machine/MemoryCommands.lean ====
section
/-!
DEFINITION. The host's commands over chains: ALLOC (R29, R32), RELEASE (R33), SEEK (R35).
-/
namespace Sys2Proof.Machine

/-- ALLOC for `n` pages, 1 to 4, once every waiting receive request has been served (R29, R30). -/
def State.allocPages (s : State) (n : Nat) : State :=
  if n ≤ s.freeCount then
    match s.freeList with
    | [] => s.done .noRoom
    | h :: _ => ((s.grant .held n).setRes 0 h).done .ok
  else s.done .noRoom

/-- ALLOC at its strobe (R32). -/
def State.allocBody (s : State) : State :=
  let n := (s.argByte 0).toNat
  if n = 0 ∨ 4 < n then s.done .badArg else (s.serveAll.allocPages n).settle

/-- ALLOC. -/
def execAlloc (s : State) : Result := .next (s.strobe State.allocBody)

/-- RELEASE at its strobe (R33). -/
def State.releaseBody (s : State) : State :=
  let h := s.argByte 0
  if s.isHeldHead h then (((s.release h).detachFrom h).done .ok).settle else s.done .badChain

/-- RELEASE. -/
def execRelease (s : State) : Result := .next (s.strobe State.releaseBody)

/-- SEEK at its strobe (R35). -/
def State.seekBody (s : State) : State :=
  let h := s.argByte 0
  let off := s.argByte 1
  if !s.isHeldHead h then s.done .badChain
  else if Config.pageSize * s.pageCount h ≤ off.toNat then s.done .badArg
  else (s.attach h off).done .ok

/-- SEEK. -/
def execSeek (s : State) : Result := .next (s.strobe State.seekBody)

end Sys2Proof.Machine
end

