-- ==== Sys2Proof/Machine/QueueCommands.lean ====
section
/-!
DEFINITION. The host's commands over the queues: TAKE (R95 to R97), SUBMIT (R106 to R109), CANCEL
(R112), FLUSH (R113), POPDONE (R118, R119).
-/
namespace Sys2Proof.Machine

/-- TAKE at its strobe (R95): refused EMPTY, or the head entry's chain becomes HELD, RES0 to RES7 are
loaded and the data port attached at offset 0. -/
def State.takeBody (s : State) : State :=
  match s.rfq with
  | [] => s.done .empty
  | e :: rest =>
    ((({ s with rfq := rest }.setOwner e.head .held).loadRes 0 (receiveHeader e)).attach e.head 0).done
      .ok

/-- TAKE. -/
def execTake (s : State) : Result := .next (s.strobe State.takeBody)

/-- Whether SUBMIT's third test passes for a channel: DEST not 00h, LEN at most 240, AR only with an
individual DEST, and an own address (R106). -/
def submitArgsOk (ch : Channel) (ar : Bool) (dest len : Byte) : Bool :=
  dest != 0 && len.toNat ≤ 240 && (!ar || isIndividual dest) && ch.hasOwn

/-- The entry SUBMIT appends to channel c's queue (R105, R108). -/
def State.submitEntry (s : State) (c : Chan) : TxEntry :=
  let h := s.argByte 0
  { head := h, pages := s.pageCount h, dest := s.argByte 2, src := (s.chan c).ownAddr
    ar := submitAr (s.argByte 1), seq := (s.chan c).seqCounter, len := s.argByte 3
    tag := s.argByte 4, active := false }

/-- An accepted SUBMIT (R108, R109): sequence number, source, header area, append, result, and the data
port detached from the chain. -/
def State.submitAccept (s : State) (c : Chan) : State :=
  let e := s.submitEntry c
  let s1 := (s.storeBytes e.head 0 (transmitHeader c e)).setOwner e.head (.queuedTx c)
  let s2 := s1.updChan c fun ch =>
    Channel.workArrived { ch with txq := ch.txq ++ [e], seqCounter := ch.seqCounter + 1 }
  ((s2.setRes 0 (e.seq.setWidth 8)).detachFrom e.head).done .ok

/-- SUBMIT at its strobe: the tests of R106 in order. -/
def State.submitBody (s : State) : State :=
  let h := s.argByte 0
  let dest := s.argByte 2
  let len := s.argByte 3
  if !s.isHeldHead h then s.done .badChain
  else if s.argByte 5 ≠ checkByte dest len then s.done .check
  else
    match submitChan (s.argByte 1) with
    | none => s.done .badArg
    | some c =>
      if !submitArgsOk (s.chan c) (submitAr (s.argByte 1)) dest len then s.done .badArg
      else if s.pageCount h < pagesFor len.toNat then s.done .badLen
      else if Config.txqCapacity ≤ (s.chan c).txq.length then s.done .qFull
      else s.submitAccept c

/-- SUBMIT. -/
def execSubmit (s : State) : Result := .next (s.strobe State.submitBody)

/-- The oldest non-active entry with a tag (R112). -/
def findCancel (q : List TxEntry) (tag : Byte) : Option TxEntry :=
  q.find? fun e => !e.active && e.tag == tag

/-- CANCEL at its strobe (R112). -/
def State.cancelBody (s : State) : State :=
  let tag := s.argByte 1
  match chanArg (s.argByte 0) with
  | none => s.done .badArg
  | some c =>
    match findCancel (s.chan c).txq tag with
    | some e =>
      let s1 := (s.setOwner e.head .held).updChan c fun ch =>
        Channel.headWithdrawn
          { ch with txq := ch.txq.eraseP fun e => !e.active && e.tag == tag }
      (s1.setRes 0 e.head).done .ok
    | none =>
      if (s.chan c).txq.any fun e => e.tag == tag then s.done .active else s.done .notFound

/-- CANCEL. -/
def execCancel (s : State) : Result := .next (s.strobe State.cancelBody)

/-- Chains released one after another (R113). -/
def State.releaseAll (s : State) : List TxEntry → State
  | [] => s
  | e :: es => (s.release e.head).releaseAll es

/-- FLUSH at its strobe (R113). -/
def State.flushBody (s : State) : State :=
  match chanArg (s.argByte 0) with
  | none => s.done .badArg
  | some c =>
    let gone := (s.chan c).txq.filter fun e => !e.active
    let s1 := (s.updChan c fun ch =>
      Channel.headWithdrawn { ch with txq := ch.txq.filter fun e => e.active }).releaseAll gone
    ((s1.setRes 0 (byteOf gone.length)).done .ok).settle

/-- FLUSH. -/
def execFlush (s : State) : Result := .next (s.strobe State.flushBody)

/-- RES0 to RES4 after POPDONE (R118, section 11.3). -/
def recordBytes (r : TxRecord) : List Byte :=
  [byteOf r.chan.val, r.tag, r.seq.setWidth 8, byteOf r.outcome.code, byteOf r.attempts]

/-- Whether a sequencer is in the set that waits for a completion queue place (R117). -/
def State.waiting (s : State) (c : Chan) : Bool := (s.chan c).sequencer.state == .completeWait

/-- A freed place is given to one waiting sequencer, in rotation (R119, R144). -/
def State.servePlace (s : State) : State :=
  match nextAfter s.lastTcq s.waiting with
  | none => s
  | some c =>
    match (s.chan c).sequencer.outcome with
    | none => s
    | some o => { s with lastTcq := c }.finishEntry c o

/-- POPDONE at its strobe (R118). -/
def State.popdoneBody (s : State) : State :=
  match s.tcq with
  | [] => s.done .empty
  | r :: rest =>
    ((({ s with tcq := rest }.loadRes 0 (recordBytes r)).servePlace).done .ok).settle

/-- POPDONE. -/
def execPopdone (s : State) : Result := .next (s.strobe State.popdoneBody)

end Sys2Proof.Machine
end

