-- ==== Sys2Proof/Machine/Resets.lean ====
section
/-!
DEFINITION. Soft reset (R192, R193) and pin reset (R191).
-/
namespace Sys2Proof.Machine

/-- A channel after soft reset (R177, R193): its configuration registers are kept, everything else of
the part is as after pin reset; the level of the receive line is the segment's. -/
def Channel.softReset (ch : Channel) : Channel :=
  { Channel.reset with
    ownAddr := ch.ownAddr, div := ch.div, flags := ch.flags, spacing := ch.spacing
    gapLim := ch.gapLim, retry := ch.retry, backoff := ch.backoff, ackTo := ch.ackTo
    busyDly := ch.busyDly, rxd := ch.rxd }

/-- The part after soft reset, before SRST completes: what R193 keeps is kept, the rest is as after
pin reset (R43, R103, R121, R177, R180, R192). -/
def State.softReset (s : State) : State :=
  { State.reset with
    pending := s.pending, resetLow := s.resetLow, resetIn := s.resetIn, rxdIn := s.rxdIn
    dOut := s.dOut
    eventEn := s.eventEn, condEn := s.condEn
    snapEventEn := s.snapEventEn, snapDiv := s.snapDiv, snapSpacing := s.snapSpacing
    mem := s.mem, reserve := s.reserve, station := s.station
    holdLevel := s.holdLevel, resumeLevel := s.resumeLevel, holdTime := s.holdTime
    chans := s.chans.map Channel.softReset }

/-- SRST at its strobe: it completes with OK, which leaves CMD_DONE set (R192, R193). -/
def State.srstBody (s : State) : State := s.softReset.done .ok

/-- SRST. -/
def execSrst (s : State) : Result := .next (s.strobe State.srstBody)

/-- The part after pin reset (R191): every item at its pin-reset value and RESET# high. The queue of
commands and what comes on the input pins are outside the part (log 17). The contents of pages are
undefined (R42) and no reset clears them: they stay (log 5). -/
def State.pinReset (s : State) : State :=
  { State.reset with
    pending := s.pending, resetIn := s.resetIn, rxdIn := s.rxdIn, mem := s.mem
    chans := s.chans.map fun ch => { Channel.reset with rxd := ch.rxd } }

/-- PIN_RESET (R191): RESET# has been low and goes high. -/
def execPinReset (s : State) : Result := .next s.pinReset

end Sys2Proof.Machine
end

