-- ==== Sys2Proof/Machine/TableCommands.lean ====
section
/-!
DEFINITION. The host's commands over tables and counters: CLEARSEQ (R78), STWRITE (R50), STREAD (R51),
COUNTER (R176).
-/
namespace Sys2Proof.Machine

/-- CLEARSEQ at its strobe (R78): the entries of the channels in ARG0's bits 3 to 0 are removed and
counted in RES0. -/
def State.clearseqBody (s : State) : State :=
  let m := s.argByte 0
  let kept := s.seqTable.filter fun e => !m.getLsbD e.chan.val
  ({ s with seqTable := kept }.setRes 0 (byteOf (s.seqTable.length - kept.length))).done .ok

/-- CLEARSEQ. -/
def execClearseq (s : State) : Result := .next (s.strobe State.clearseqBody)

/-- A station table index argument: above 15 is out of range (R50, R51). -/
def stationArg (b : Byte) : Option (Fin 16) :=
  if h : b.toNat < 16 then some ⟨b.toNat, h⟩ else none

/-- STWRITE at its strobe (R50). -/
def State.stwriteBody (s : State) : State :=
  match stationArg (s.argByte 0) with
  | none => s.done .badArg
  | some i =>
    if s.argByte 1 = 0x00 ∨ s.argByte 1 = 0xFF then s.done .badArg
    else
      { s with station := s.station.set i (unpackStation (s.argByte 1) (s.argByte 2)) }.done .ok

/-- STWRITE. -/
def execStwrite (s : State) : Result := .next (s.strobe State.stwriteBody)

/-- STREAD at its strobe (R51). -/
def State.streadBody (s : State) : State :=
  match stationArg (s.argByte 0) with
  | none => s.done .badArg
  | some i =>
    (s.loadRes 0 [s.argByte 0, s.station[i].addr, packMask s.station[i]]).done .ok

/-- STREAD. -/
def execStread (s : State) : Result := .next (s.strobe State.streadBody)

/-- COUNTER at its strobe (R176, R195): RES0 and RES1 take the counter, and bit 0 of ARG2 clears it. -/
def State.counterBody (s : State) : State :=
  match chanArg (s.argByte 0), stationArg (s.argByte 1) with
  | some c, some k =>
    let v := (s.chan c).counters[k]
    let s1 := s.loadRes 0 [loByte v, hiByte v]
    (if (s.argByte 2).getLsbD 0 then
      s1.updChan c fun ch => { ch with counters := ch.counters.set k 0 }
    else s1).done .ok
  | _, _ => s.done .badArg

/-- COUNTER. -/
def execCounter (s : State) : Result := .next (s.strobe State.counterBody)

end Sys2Proof.Machine
end

