-- ==== Sys2Proof/Machine/HostAccess.lean ====
section
/-!
DEFINITION. Host accesses: DATA (R36 to R38), EVENT (R187), register reads with their snapshots (R178
to R180) and register writes (R172, R179, R188, R189).
-/
namespace Sys2Proof.Machine

/-! ### The data port -/

/-- The pointer advances by one byte, or the port enters END at the chain's last byte (R36). -/
def State.portAdvance (s : State) : State :=
  if s.port.offset.toNat + 1 < Config.pageSize * s.pageCount s.port.page then
    { s with port := { s.port with offset := s.port.offset + 1 } }
  else { s with port := { s.port with mode := .ended } }

/-- A host read of DATA (R36, R38). -/
def State.dataReadOp (s : State) : State :=
  if s.port.mode = .attached then
    { s with dOut := s.chainByte s.port.page s.port.offset.toNat }.portAdvance
  else { s with dOut := 0x00 }.raise .portFault

/-- DATA_READ. -/
def execDataRead (s : State) : Result := .next (s.access State.dataReadOp)

/-- A host write of DATA (R37, R38). -/
def State.dataWriteOp (s : State) (v : Byte) : State :=
  if s.port.mode = .attached then
    (s.storeChain s.port.page s.port.offset.toNat v).portAdvance
  else s.raise .portFault

/-- DATA_WRITE. -/
def execDataWrite (v : Byte) (s : State) : Result := .next (s.access fun s => s.dataWriteOp v)

/-! ### EVENT -/

/-- A host write to a byte of EVENT clears each flag written as 1 (R187). -/
def State.eventClear (s : State) (high : Bool) (v : Byte) : State :=
  { s with event := s.event &&& ~~~(if high then half v 0 else half 0 v) }

/-- EVENT_WRITE. -/
def execEventWrite (high : Bool) (v : Byte) (s : State) : Result := .next (s.access fun s => s.eventClear high v)

/-! ### Reads -/

/-- The channel CHSEL shows in the window (R172). -/
def State.window (s : State) : Channel := s.chan s.chsel

/-- What a host read of an offset returns, DATA aside (R178, R179, section 11.4). The high byte of a
16-bit register reads as its snapshot (R180); a strobe reads 00h. -/
def State.readByte (s : State) (off : Offset) : Byte :=
  match off.toNat with
  | 0x00 => Config.idByte
  | 0x01 => Config.revByte
  | 0x02 => s.cmdStatus.code
  | 0x03 => s.cond
  | 0x04 => s.condEn
  | 0x05 => loByte s.event
  | 0x06 => s.snapEvent
  | 0x07 => loByte s.eventEn
  | 0x08 => s.snapEventEn
  | 0x09 => s.arg[0]
  | 0x0A => s.arg[1]
  | 0x0B => s.arg[2]
  | 0x0C => s.arg[3]
  | 0x0D => s.arg[4]
  | 0x0E => s.arg[5]
  | 0x0F => s.res[0]
  | 0x10 => s.res[1]
  | 0x11 => s.res[2]
  | 0x12 => s.res[3]
  | 0x13 => s.res[4]
  | 0x14 => s.res[5]
  | 0x15 => s.res[6]
  | 0x16 => s.res[7]
  | 0x18 => s.port.page
  | 0x19 => s.port.offset
  | 0x1A => s.port.mode.code
  | 0x1B => loByte s.freeWord
  | 0x1C => s.snapFree
  | 0x1D => byteOf s.rfq.length
  | 0x1E => byteOf s.tcq.length
  | 0x1F => s.reserve
  | 0x20 => s.holdLevel
  | 0x21 => s.resumeLevel
  | 0x22 => s.holdTime
  | 0x23 => byteOf s.chsel.val
  | 0x24 => s.window.ownAddr
  | 0x25 => loByte s.window.div
  | 0x26 => s.snapDiv
  | 0x27 => s.window.flags
  | 0x28 => loByte s.window.spacing
  | 0x29 => s.snapSpacing
  | 0x2A => s.window.gapLim
  | 0x2B => s.window.retry
  | 0x2C => s.window.backoff
  | 0x2D => s.window.ackTo
  | 0x2E => s.window.busyDly
  | 0x2F => s.window.chState
  | _ => 0x00

/-- A read of a 16-bit register's low byte copies its high byte into the register's snapshot (R180). -/
def State.snapshot (s : State) (off : Offset) : State :=
  match off.toNat with
  | 0x05 => { s with snapEvent := hiByte s.event }
  | 0x07 => { s with snapEventEn := hiByte s.eventEn }
  | 0x1B => { s with snapFree := hiByte s.freeWord }
  | 0x25 => { s with snapDiv := hiByte s.window.div }
  | 0x28 => { s with snapSpacing := hiByte s.window.spacing }
  | _ => s

/-- A host read: the part drives the byte, and a low-byte read loads a snapshot (R178, R180). A read
of DATA is a DATA_READ. -/
def State.hostRead (s : State) (off : Offset) : State :=
  if off.readHasOwnRow then s.dataReadOp
  else { s with dOut := s.readByte off }.snapshot off

/-- LOW_BYTE_READ_SNAPSHOT (R180); the command stands for every host read (log 14). -/
def execLowByteReadSnapshot (off : Offset) (s : State) : Result :=
  .next (s.access fun s => s.hostRead off)

/-! ### Writes -/

/-- A configuration register of the window written (R172). -/
def State.writeWindow (s : State) (f : Channel → Channel) : State := s.updChan s.chsel f

/-- A channel number of the two low bits of a byte (R172). -/
def lowChan (v : Byte) : Chan := ⟨(v &&& 3).toNat % 4, Nat.mod_lt _ (by decide)⟩

/-- A host write to a register without behaviour of its own (R172, R179): stored at once, bits the
register does not define forced to 0; a read-only location ignores it. -/
def State.registerWriteOp (s : State) (off : Offset) (v : Byte) : State :=
  match off.toNat with
  | 0x04 => { s with condEn := v &&& 0x0F }
  | 0x07 => { s with eventEn := half (hiByte s.eventEn) v }
  | 0x08 => { s with eventEn := half (v &&& 0x1F) (loByte s.eventEn) }
  | 0x09 => { s with arg := s.arg.set 0 v }
  | 0x0A => { s with arg := s.arg.set 1 v }
  | 0x0B => { s with arg := s.arg.set 2 v }
  | 0x0C => { s with arg := s.arg.set 3 v }
  | 0x0D => { s with arg := s.arg.set 4 v }
  | 0x0E => { s with arg := s.arg.set 5 v }
  | 0x1F => { s with reserve := v }
  | 0x20 => { s with holdLevel := v }
  | 0x21 => { s with resumeLevel := v }
  | 0x22 => { s with holdTime := v }
  | 0x23 => { s with chsel := lowChan v }
  | 0x24 => s.writeWindow fun ch => { ch with ownAddr := v }
  | 0x25 => s.writeWindow fun ch => { ch with div := half (hiByte ch.div) v }
  | 0x26 => s.writeWindow fun ch => { ch with div := half v (loByte ch.div) }
  | 0x27 => s.writeWindow fun ch => { ch with flags := v &&& 0x3F }
  | 0x28 => s.writeWindow fun ch => { ch with spacing := half (hiByte ch.spacing) v }
  | 0x29 => s.writeWindow fun ch => { ch with spacing := half v (loByte ch.spacing) }
  | 0x2A => s.writeWindow fun ch => { ch with gapLim := v }
  | 0x2B => s.writeWindow fun ch => { ch with retry := v }
  | 0x2C => s.writeWindow fun ch => { ch with backoff := v }
  | 0x2D => s.writeWindow fun ch => { ch with ackTo := v }
  | 0x2E => s.writeWindow fun ch => { ch with busyDly := v }
  | _ => s

/-- What the command unit does at a strobe offset (section 10.3). -/
def State.strobeAt (s : State) (off : Offset) : State :=
  match off.toNat with
  | 0x30 => s.strobe State.allocBody
  | 0x31 => s.strobe State.releaseBody
  | 0x32 => s.strobe State.seekBody
  | 0x33 => s.strobe State.takeBody
  | 0x34 => s.strobe State.submitBody
  | 0x35 => s.strobe State.cancelBody
  | 0x36 => s.strobe State.flushBody
  | 0x37 => s.strobe State.popdoneBody
  | 0x38 => s.strobe State.enableBody
  | 0x39 => s.strobe State.disableBody
  | 0x3A => s.strobe State.abortBody
  | 0x3B => s.strobe State.clearseqBody
  | 0x3C => s.strobe State.stwriteBody
  | 0x3D => s.strobe State.streadBody
  | 0x3E => s.strobe State.counterBody
  | 0x3F => s.strobe State.srstBody
  | _ => s

/-- A host write at an offset (R178, R179): an offset with a row of its own does what that row does. -/
def State.hostWrite (s : State) (off : Offset) (v : Byte) : State :=
  if off.writeHasOwnRow then
    if off = 0x05 then s.eventClear false v
    else if off = 0x06 then s.eventClear true v
    else if off = 0x17 then s.dataWriteOp v
    else s.strobeAt off
  else s.registerWriteOp off v

/-- REGISTER_WRITE (R179). -/
def execRegisterWrite (off : Offset) (v : Byte) (s : State) : Result :=
  .next (s.access fun s => s.hostWrite off v)

end Sys2Proof.Machine
end

