-- ==== Sys2Proof/Machine/Dispatch.lean ====
section
/-!
DEFINITION. The meaning of every command, one arm each.
-/
namespace Sys2Proof.Machine

/-- What a command does to everything but the queue. -/
def exec (i : Instr) (s : State) : Host.Outcome State Fault Refusal :=
  match i with
  | .alloc => Sys2Proof.Machine.execAlloc s
  | .release => Sys2Proof.Machine.execRelease s
  | .seek => Sys2Proof.Machine.execSeek s
  | .take => Sys2Proof.Machine.execTake s
  | .submit => Sys2Proof.Machine.execSubmit s
  | .cancel => Sys2Proof.Machine.execCancel s
  | .flush => Sys2Proof.Machine.execFlush s
  | .popdone => Sys2Proof.Machine.execPopdone s
  | .enable => Sys2Proof.Machine.execEnable s
  | .disable => Sys2Proof.Machine.execDisable s
  | .abort => Sys2Proof.Machine.execAbort s
  | .clearseq => Sys2Proof.Machine.execClearseq s
  | .stwrite => Sys2Proof.Machine.execStwrite s
  | .stread => Sys2Proof.Machine.execStread s
  | .counter => Sys2Proof.Machine.execCounter s
  | .srst => Sys2Proof.Machine.execSrst s
  | .dataRead => Sys2Proof.Machine.execDataRead s
  | .dataWrite v => Sys2Proof.Machine.execDataWrite v s
  | .eventWrite high v => Sys2Proof.Machine.execEventWrite high v s
  | .lowByteReadSnapshot off => Sys2Proof.Machine.execLowByteReadSnapshot off s
  | .registerWrite off v => Sys2Proof.Machine.execRegisterWrite off v s
  | .pinReset => Sys2Proof.Machine.execPinReset s
  | .characterReceived c ch => Sys2Proof.Machine.execCharacterReceived c ch s
  | .receiveRequestServed => Sys2Proof.Machine.execReceiveRequestServed s
  | .gapExpiry c => Sys2Proof.Machine.execGapExpiry c s
  | .skipGapExit c => Sys2Proof.Machine.execSkipGapExit c s
  | .lineFault c => Sys2Proof.Machine.execLineFault c s
  | .responseStart c => Sys2Proof.Machine.execResponseStart c s
  | .flowFrameStart c => Sys2Proof.Machine.execFlowFrameStart c s
  | .attemptStart c => Sys2Proof.Machine.execAttemptStart c s
  | .readbackCharacter c ch => Sys2Proof.Machine.execReadbackCharacter c ch s
  | .missingReadback c => Sys2Proof.Machine.execMissingReadback c s
  | .lineTransmitterQuiet c => Sys2Proof.Machine.execLineTransmitterQuiet c s
  | .collisionReported c => Sys2Proof.Machine.execCollisionReported c s
  | .abortComplete c => Sys2Proof.Machine.execAbortComplete c s
  | .backoffExpiry c => Sys2Proof.Machine.execBackoffExpiry c s
  | .txAckTimeouts c => Sys2Proof.Machine.execTxAckTimeouts c s
  | .busyExpiry c => Sys2Proof.Machine.execBusyExpiry c s
  | .holdTimerExpiry c => Sys2Proof.Machine.execHoldTimerExpiry c s
  | .refreshExpiry c => Sys2Proof.Machine.execRefreshExpiry c s
  | .flowBackoffExpiry c => Sys2Proof.Machine.execFlowBackoffExpiry c s
  | .startBitDetected c => Sys2Proof.Machine.execStartBitDetected c s
  | .lineSampledHigh c => Sys2Proof.Machine.execLineSampledHigh c s

end Sys2Proof.Machine
end

