-- ==== Sys2Proof/Machine/Step.lean ====
section
/-!
DEFINITION. One step: the command at the front of the queue; with an empty queue, the part's own event
that is due, or one REFCLK period (log 1).
-/
namespace Sys2Proof.Machine

/-- One step of the part. -/
def step (s : State) : Host.Outcome State Fault Refusal :=
  match s.pending with
  | c :: q => exec c { s with pending := q }
  | [] =>
    match s.dueEvent with
    | some c => exec c s
    | none => .next s.advance

/-- The part with the command a table word spells at the front of its queue; unchanged where the word
spells none, as every word does (log 23). -/
def State.withFetchWord (s : State) (nbits w : Nat) : State :=
  match Sys2Proof.decodeTableWord nbits w with
  | some c => { s with pending := c :: s.pending }
  | none => s

end Sys2Proof.Machine
end

