-- ==== Sys2Proof/Safety.lean ====
section
/-!
DEFINITION. What a safe run is: the states in which the part's tables are in canonical form, its
queues within their capacities, its registers without bits they do not define, and no channel stands
in STOPPING with nothing left to wait for.
-/
namespace Sys2Proof.Machine

/-- Frame memory and the page table are in canonical form. -/
def State.Canonical (s : State) : Prop := s.mem.wf ∧ s.pageTable.wf

/-- The capacities of the queues and the sequence table (R73, R93, R104, R115). -/
def State.Bounded (s : State) : Prop :=
  s.rfq.length ≤ Config.rfqCapacity ∧ s.tcq.length ≤ Config.tcqCapacity ∧
  s.seqTable.length ≤ Config.seqCapacity ∧
  ∀ c : Chan, (s.chan c).txq.length ≤ Config.txqCapacity

/-- The sequence table never holds two entries with the same channel and source (R73). -/
def State.SeqKeysDistinct (s : State) : Prop :=
  s.seqTable.Pairwise fun a b => ¬ (a.chan = b.chan ∧ a.src = b.src)

/-- Bits a register does not define read 0 (R179, R188, R189): EVENT and EVENT_EN bits 13 to 15,
COND_EN bits 4 to 7, FLAGS bits 6 and 7. -/
def State.ReservedZero (s : State) : Prop :=
  s.event &&& 0xE000 = 0 ∧ s.eventEn &&& 0xE000 = 0 ∧ s.condEn &&& 0xF0 = 0 ∧
  ∀ c : Chan, (s.chan c).flags &&& 0xC0 = 0

/-- No channel is STOPPING with the stopping conditions holding together (R166). -/
def State.Settled (s : State) : Prop := ∀ c : Chan, (s.chan c).stopReady = false

/-- A channel is ABORTING exactly while the command unit is busy with its ABORT (R185). -/
def State.BusyIffAborting (s : State) : Prop :=
  ∀ c : Chan, (s.chan c).mode = .aborting ↔ s.busy = some c

/-! ### Laws of one channel -/

/-- A parser past the LEN character of its frame. -/
def Parser.pastLen : Parser → Bool
  | .len | .payload | .checkHi => true
  | .hunt | .destSeen | .src | .ctrl | .checkLo | .skip => false

/-- The law of a receive engine (R44, R55, R56): between frames it holds nothing; a receive request,
for 1 to 4 pages, waits only at LEN and before the room mark is known; a room mark other than none
stands only past LEN; and only a DATA frame has such a mark or a request. -/
def Engine.Law (e : Engine) : Prop :=
  (e.parser = .hunt ∨ e.parser = .skip → e = .idle e.parser) ∧
  e.parser ≠ .checkLo ∧
  (∀ n, e.request = some n → e.parser = .len ∧ e.room = .none ∧ 1 ≤ n ∧ n ≤ Config.maxChain) ∧
  (e.room ≠ .none → e.parser.pastLen = true) ∧
  (e.room ≠ .none ∨ e.request ≠ none → ctrlKind e.ctrl = .data)

/-- The law of a transmit queue and its sequencer (R111, R122): an active entry is the head alone; the
attempt count is 0 exactly without one; the states past DEFER have one and IDLE has none; the held
outcome stands in COMPLETE_WAIT alone. -/
def Channel.QueueLaw (ch : Channel) : Prop :=
  (∀ e ∈ ch.txq.tail, e.active = false) ∧
  (ch.sequencer.attempts = 0 ↔ ch.headActive = false) ∧
  (ch.sequencer.state = .idle → ch.headActive = false) ∧
  (ch.sequencer.state ≠ .idle → ch.sequencer.state ≠ .defer → ch.headActive = true) ∧
  (ch.sequencer.outcome.isSome = true ↔ ch.sequencer.state = .completeWait)

/-- The law of attempts (R131): never more than 1 + L, and fewer wherever another may follow. -/
def Sequencer.AttemptLaw (q : Sequencer) : Prop :=
  q.limit ≤ 15 ∧ q.attempts ≤ 1 + q.limit ∧
  (q.state = .idle ∨ q.state = .defer ∨ q.state = .backoff ∨ q.state = .busyWait →
    q.attempts ≤ q.limit)

/-- What a channel that is OFF or ABORTING holds of the receive and flow sides: nothing (R45, R157,
R160, R168). -/
def Channel.AtRest (ch : Channel) : Prop :=
  ch.engine = .idle .hunt ∧ ch.response = none ∧ ch.flow = none ∧ ch.holdOutstanding = false ∧
  ch.refresh = none ∧ ch.holdTimer = none

/-- The law of the channel states: at rest in OFF and ABORTING; in OFF the driver enable released and
the sequencer IDLE (R45); in ABORTING the sequencer only where ABORT leaves it (R169). -/
def Channel.ModeLaw (ch : Channel) : Prop :=
  (ch.mode = .off ∨ ch.mode = .aborting → ch.AtRest) ∧
  (ch.mode = .off → ch.lineTx = .quiet ∧ ch.sequencer.state = .idle) ∧
  (ch.mode = .aborting →
    ch.sequencer.state = .idle ∨ ch.sequencer.state = .attempt ∨
    (ch.sequencer.state = .defer ∧ ch.headActive = false))

/-- The law of the line transmitter and the sequencer (R126 to R129, R131): while a data frame on the
line has not ended cleanly, the sequencer is in ATTEMPT. -/
def Channel.LineLaw (ch : Channel) : Prop :=
  ∀ f, ch.lineTx = .sending f → f.kind = .data → f.verdict ≠ .clean → ch.sequencer.state = .attempt

/-- The law of the receiver (R84): a response is pending only while no start bit has been detected
after the frame it answers. -/
def Channel.ReceiverLaw (ch : Channel) : Prop :=
  ch.response.isSome = true → ch.rx = .looking ∨ ch.rx = .candidate

/-- The law of the flow side (R150, R153, R154): a flow frame is in SENDING exactly while the line
transmitter sends it without a clean end yet, but for one cut by ABORT; its backoff timer runs in
BACKOFF only; it is never attempted more than 1 + L times, and fewer wherever another attempt may
follow; a RESUME stands in the slot, and the refresh timer runs, only with the hold-outstanding flag
set; and the slot is empty while the refresh timer runs. -/
def Channel.FlowLaw (ch : Channel) : Prop :=
  (∀ f, ch.lineTx = .sending f → f.kind = .flow → f.verdict ≠ .clean → ch.mode ≠ .aborting →
    ∃ g, ch.flow = some g ∧ g.phase = .sending) ∧
  (∀ g, ch.flow = some g →
    (g.phase = .sending → ∃ f, ch.lineTx = .sending f ∧ f.kind = .flow ∧ f.verdict ≠ .clean) ∧
    (g.timer.isSome = true ↔ g.phase = .backoff) ∧
    g.limit ≤ 15 ∧ g.attempts ≤ 1 + g.limit ∧ (g.phase ≠ .sending → g.attempts ≤ g.limit) ∧
    (g.resume = true → ch.holdOutstanding = true)) ∧
  (ch.refresh.isSome = true → ch.holdOutstanding = true ∧ ch.flow = none)

/-- The law of a channel. -/
def Channel.Law (ch : Channel) : Prop :=
  ch.engine.Law ∧ ch.QueueLaw ∧ ch.sequencer.AttemptLaw ∧ ch.ModeLaw ∧ ch.LineLaw ∧
  ch.ReceiverLaw ∧ ch.FlowLaw

/-- The pool monitor and the flow slots agree (R151 to R153, R155, R156): a frame in a slot that is not
SENDING is a HOLD while the monitor is LOW and a RESUME while it is NORMAL, and a refresh timer runs
only while it is LOW. -/
def State.SlotsFollowThePool (s : State) : Prop :=
  ∀ c : Chan,
    (∀ g, (s.chan c).flow = some g → g.phase ≠ .sending → (g.resume = true ↔ s.pool = .normal)) ∧
    ((s.chan c).refresh.isSome = true → s.pool = .low)

/-- Every channel keeps its law and none stands in STOPPING with nothing to wait for; and the flow
slots agree with the pool monitor. -/
def State.ChannelsLaw (s : State) : Prop :=
  (∀ c : Chan, (s.chan c).Law) ∧ s.Settled ∧ s.SlotsFollowThePool

/-! ### The law of pages -/

/-- The chains a channel's engine and transmit queue hold, by head page and owner (R22). -/
def Channel.holdings (c : Chan) (ch : Channel) : List (Page × Owner) :=
  ch.txq.map (fun e => (e.head, if e.active then .activeTx c else .queuedTx c)) ++
    match ch.engine.room with
    | .storing h => [(h, .filling c)]
    | .none | .noRoom => []

/-- The chains the part's blocks hold, by head page and owner (R22); the host's are the HELD ones. -/
def State.holdings (s : State) : List (Page × Owner) :=
  s.rfq.map (fun e => (e.head, .queuedRx)) ++
    [0, 1, 2, 3].flatMap fun c => (s.chan c).holdings c

/-- The law of pages (R18, R19, R22, R23): the free list holds exactly the FREE pages, each once; the
pages of a chain carry one owner, are linked from one head and end within four pages; and every chain
has exactly one holder. -/
structure State.PagesLaw (s : State) : Prop where
  freeNodup : s.freeList.Nodup
  freeIff : ∀ p, p ∈ s.freeList ↔ (s.pageTable.record p).owner = .free
  freeRecord : ∀ p, (s.pageTable.record p).owner = .free → s.pageTable.record p = PageRecord.free
  linkOk : ∀ p q, (s.pageTable.record p).link = some q →
    (s.pageTable.record q).owner = (s.pageTable.record p).owner ∧
    (s.pageTable.record q).headMark = false
  linkInj : ∀ p p' q, (s.pageTable.record p).link = some q →
    (s.pageTable.record p').link = some q → p = p'
  reached : ∀ p, (s.pageTable.record p).owner ≠ .free →
    ∃ h, (s.pageTable.record h).headMark = true ∧ p ∈ s.chainPages h
  ends : ∀ h, (s.pageTable.record h).headMark = true →
    ∃ p, (s.chainPages h).getLast? = some p ∧ (s.pageTable.record p).link = none
  oneHolder : (s.holdings.map Prod.fst).Nodup
  held : ∀ x ∈ s.holdings,
    (s.pageTable.record x.1).headMark = true ∧ (s.pageTable.record x.1).owner = x.2
  owned : ∀ h, (s.pageTable.record h).headMark = true →
    (s.pageTable.record h).owner = .held ∨ (h, (s.pageTable.record h).owner) ∈ s.holdings

/-- The law of the data port (R34, R36, R40): a port in ATTACHED or END names the head of a HELD chain
with its offset inside the chain, in END at the chain's last byte; a DETACHED port reads 00h, 00h. -/
def State.PortLaw (s : State) : Prop :=
  (s.port.mode ≠ .detached →
    (s.pageTable.record s.port.page).headMark = true ∧
    (s.pageTable.record s.port.page).owner = .held ∧
    s.port.offset.toNat < 64 * s.pageCount s.port.page) ∧
  (s.port.mode = .ended → s.port.offset.toNat + 1 = 64 * s.pageCount s.port.page) ∧
  (s.port.mode = .detached → s.port.page = 0x00 ∧ s.port.offset = 0x00)

/-! ### Words of claims -/

/-- The commands that are bus accesses (R178): the strobes, and reads and writes of the window. -/
def isAccess : Instr → Bool
  | .alloc | .release | .seek | .take | .submit | .cancel | .flush | .popdone => true
  | .enable | .disable | .abort | .clearseq | .stwrite | .stread | .counter | .srst => true
  | .dataRead | .dataWrite _ | .eventWrite _ _ | .lowByteReadSnapshot _ | .registerWrite _ _ => true
  | .pinReset | .characterReceived _ _ | .receiveRequestServed | .gapExpiry _ | .skipGapExit _ => false
  | .lineFault _ | .responseStart _ | .flowFrameStart _ | .attemptStart _ => false
  | .readbackCharacter _ _ | .missingReadback _ | .lineTransmitterQuiet _ => false
  | .collisionReported _ | .abortComplete _ | .backoffExpiry _ | .txAckTimeouts _ => false
  | .busyExpiry _ | .holdTimerExpiry _ | .refreshExpiry _ | .flowBackoffExpiry _ => false
  | .startBitDetected _ | .lineSampledHigh _ => false

/-- The sixteen strobes (section 10.3). -/
def strobes : List Instr :=
  [.alloc, .release, .seek, .take, .submit, .cancel, .flush, .popdone,
   .enable, .disable, .abort, .clearseq, .stwrite, .stread, .counter, .srst]

/-- The part as a command leaves it that completes with a code: CMD_STATUS takes the code and
CMD_DONE, bit 0 of EVENT, is set (R183, R184). -/
def State.completed (s : State) (code : StatusCode) : State :=
  { s with cmdStatus := code, event := s.event ||| 0x0001 }

/-- The data port after chain `h` stops being HELD (R40). -/
def State.portWithout (s : State) (h : Page) : DataPort :=
  if (s.port.mode = .attached ∨ s.port.mode = .ended) ∧ s.port.page = h then ⟨.detached, 0x00, 0x00⟩
  else s.port

/-- Receive engine c takes the character the receiver is about to complete: the channel is RUN or
STOPPING, its line transmitter QUIET, and a start bit has been detected (R3, R45, R46). -/
def State.Hears (s : State) (c : Chan) : Prop :=
  ((s.chan c).mode = .run ∨ (s.chan c).mode = .stopping) ∧ (s.chan c).lineTx = .quiet ∧
  (s.chan c).rx = .inCharacter

/-- A channel after its receiver has completed a character whose stop bit was high (R3, R5). -/
def Channel.heard (ch : Channel) : Channel :=
  { ch with
    rx := .looking, rxTicks := 0, rxBits := 0, rxd := true, lowPeriod := none
    idle := 0, idleRunning := true, idlePhase := 0 }

/-- How many cells just before the stop bit of a character are low: none after a marker bit 1; else the
marker bit and the data bits above the highest one that is 1; all ten, with the start bit, where no bit
is 1. -/
def trailingLow (b : Byte) (m : Bool) : Nat :=
  if m then 0 else if b = 0x00 then 10 else 8 - Nat.log2 b.toNat

/-- The low period that a character with a framing error leaves (R4): the one measured where the
receiver has sampled the character up to its stop bit, else the trailing low cells with the half cell of
the stop bit, in which LINE_FAULT has been raised only if it began with the start bit and had (log 19). -/
def Channel.lowLeft (b : Byte) (m : Bool) (ch : Channel) : Option LowPeriod :=
  match ch.lowPeriod with
  | some p =>
    if 168 ≤ ch.rxTicks then some p
    else some ⟨16 * trailingLow b m + 8, b == 0x00 && !m && p.raised⟩
  | none => some ⟨16 * trailingLow b m + 8, false⟩

/-- The frame in flight is one the engine answers (R66): AR set, class OWN, auto-respond set. -/
def Channel.Answers (ch : Channel) : Prop :=
  ch.engine.ctrl.getLsbD 3 = true ∧ ch.engine.cls = .own ∧ ch.flags.getLsbD 3 = true

/-- The conditions of R166 hold together on a STOPPING channel. -/
def Channel.MayStop (ch : Channel) : Prop :=
  ch.mode = .stopping ∧
  (ch.sequencer.state = .idle ∨ (ch.sequencer.state = .defer ∧ ch.headActive = false)) ∧
  ch.response = none ∧ ch.flow = none ∧ ch.lineTx = .quiet ∧ ch.engine.parser = .hunt

/-- A channel as entry into OFF leaves it (R167). -/
def Channel.atOff (ch : Channel) : Channel :=
  { ch with
    mode := .off, rx := .looking, rxTicks := 0, rxBits := 0, lowPeriod := none
    idle := 0, idleRunning := false, idlePhase := 0
    holdOutstanding := false, refresh := none, holdTimer := none
    sequencer :=
      { ch.sequencer with
        state := if ch.sequencer.state = .defer then .idle else ch.sequencer.state
        timer := none } }

/-- A flow frame as R150 has it placed; its limit, `d` and own address, which have no meaning before the
first attempt, are 0 (the model's choice, log 12). -/
def newFlow (resume : Bool) : FlowFrame := ⟨resume, .waiting, 0, 0, none, 0x00, 0x00⟩

/-- No receive request waits on the allocator. -/
def State.NoRequests (s : State) : Prop := ∀ c : Chan, (s.chan c).engine.request = none

/-- Channel c's receive request, for `n` pages, is the one the allocator serves next: the first in
the order c' + 1, c' + 2, c' + 3, c' + 4, modulo 4, from the last served c' (R30). -/
def State.NextRequest (s : State) (c : Chan) (n : Nat) : Prop :=
  (s.chan c).engine.request = some n ∧
  ∀ d : Chan, d - (s.lastRx + 1) < c - (s.lastRx + 1) → (s.chan d).engine.request = none

/-- Channel c is the waiting sequencer the completion queue serves next, with held outcome `o`
(R119). -/
def State.NextWaiting (s : State) (c : Chan) (o : TxOutcome) : Prop :=
  (s.chan c).sequencer.state = .completeWait ∧ (s.chan c).sequencer.outcome = some o ∧
  ∀ d : Chan, d - (s.lastTcq + 1) < c - (s.lastTcq + 1) →
    (s.chan d).sequencer.state ≠ .completeWait

/-- The part's own event `i` is due: what the rule that names its moment asks for holds now. A host
command comes from outside the part; PIN_RESET when RESET# goes high (R191). A waiting receive request
is due at once (R28). The receiver's: the middle of a candidate start bit's cell, the middle of the first stop bit, a high sample
that it waits for (R3), and the 2 x C bit times of a low period (R4). The gap limit of a frame in flight
or a skipped one (R47, R59). The line transmitter's: no readback by the middle of the first stop bit
(R127), and the end of the last character (R126, R129, R171). The timers at 0 (R16). The starts: the
response gap over (R81); line idle time at S for the highest-ranking source (R124, R125). -/
def State.Due (s : State) : Instr → Prop
  | .pinReset => s.resetLow = true ∧ s.resetIn.head? = some true
  | .receiveRequestServed => ∃ c, (s.chan c).engine.request ≠ none
  | .startBitDetected c =>
    (s.chan c).mode ≠ .off ∧ (s.chan c).rx = .candidate ∧ 8 ≤ (s.chan c).rxTicks
  | .characterReceived c x =>
    (s.chan c).mode ≠ .off ∧ (s.chan c).rx = .inCharacter ∧ 168 ≤ (s.chan c).rxTicks ∧
    (s.chan c).lineTx = .quiet ∧
    x = ⟨(s.chan c).rxBits.extractLsb' 0 8, (s.chan c).rxBits.getLsbD 8, !(s.chan c).rxd⟩
  | .readbackCharacter c x =>
    (s.chan c).mode ≠ .off ∧ (s.chan c).rx = .inCharacter ∧ 168 ≤ (s.chan c).rxTicks ∧
    (s.chan c).lineTx ≠ .quiet ∧
    x = ⟨(s.chan c).rxBits.extractLsb' 0 8, (s.chan c).rxBits.getLsbD 8, !(s.chan c).rxd⟩
  | .lineSampledHigh c =>
    (s.chan c).mode ≠ .off ∧ (s.chan c).rx = .waitHigh ∧ (s.chan c).rxd = true ∧
    (s.chan c).prescale = 0
  | .lineFault c =>
    (s.chan c).mode ≠ .off ∧ ((s.chan c).rx = .inCharacter ∨ (s.chan c).rx = .waitHigh) ∧
    ∃ l, (s.chan c).lowPeriod = some l ∧ l.raised = false ∧
      16 * (2 * if (s.chan c).latchedTwoStop then 12 else 11) ≤ l.ticks
  | .gapExpiry c =>
    ((s.chan c).mode = .run ∨ (s.chan c).mode = .stopping) ∧ (s.chan c).idleRunning = true ∧
    (s.chan c).engine.parser.inFlight = true ∧ max 12 (s.chan c).gapLim.toNat < (s.chan c).idle
  | .skipGapExit c =>
    ((s.chan c).mode = .run ∨ (s.chan c).mode = .stopping) ∧ (s.chan c).idleRunning = true ∧
    (s.chan c).engine.parser = .skip ∧ max 12 (s.chan c).gapLim.toNat < (s.chan c).idle
  | .missingReadback c =>
    (s.chan c).mode ≠ .off ∧ (s.chan c).mode ≠ .aborting ∧
    ∃ f, (s.chan c).lineTx = .sending f ∧ f.verdict = .pending ∧ f.readBack = false ∧ 168 < f.ticks
  | .lineTransmitterQuiet c =>
    (s.chan c).mode ≠ .off ∧ (s.chan c).mode ≠ .aborting ∧
    ∃ f, (s.chan c).lineTx = .sending f ∧ f.verdict = .clean ∧
      (16 * if (s.chan c).latchedTwoStop then 12 else 11) ≤ f.ticks
  | .collisionReported c =>
    (s.chan c).mode ≠ .off ∧ (s.chan c).mode ≠ .aborting ∧
    ∃ f, (s.chan c).lineTx = .sending f ∧ f.verdict = .collision ∧
      (16 * if (s.chan c).latchedTwoStop then 12 else 11) ≤ f.ticks
  | .abortComplete c =>
    (s.chan c).mode = .aborting ∧
    ∀ f, (s.chan c).lineTx = .sending f →
      (16 * if (s.chan c).latchedTwoStop then 12 else 11) ≤ f.ticks
  | .holdTimerExpiry c => (s.chan c).mode ≠ .off ∧ (s.chan c).holdTimer = some 0
  | .refreshExpiry c => (s.chan c).mode ≠ .off ∧ (s.chan c).refresh = some 0
  | .backoffExpiry c =>
    (s.chan c).mode ≠ .off ∧ (s.chan c).sequencer.state = .backoff ∧
    (s.chan c).sequencer.timer = some 0
  | .txAckTimeouts c =>
    (s.chan c).mode ≠ .off ∧ (s.chan c).sequencer.state = .awaitAck ∧
    (s.chan c).sequencer.timer = some 0
  | .busyExpiry c =>
    (s.chan c).mode ≠ .off ∧ (s.chan c).sequencer.state = .busyWait ∧
    (s.chan c).sequencer.timer = some 0
  | .flowBackoffExpiry c =>
    (s.chan c).mode ≠ .off ∧
    ∃ g, (s.chan c).flow = some g ∧ g.phase = .backoff ∧ g.timer = some 0
  | .responseStart c =>
    ((s.chan c).mode = .run ∨ (s.chan c).mode = .stopping) ∧ (s.chan c).lineTx = .quiet ∧
    ∃ r, (s.chan c).response = some r ∧ r.gap = 0
  | .flowFrameStart c =>
    ((s.chan c).mode = .run ∨ (s.chan c).mode = .stopping) ∧ (s.chan c).lineTx = .quiet ∧
    (s.chan c).response = none ∧ (∃ g, (s.chan c).flow = some g ∧ g.phase = .waiting) ∧
    (s.chan c).engine.parser = .hunt ∧ (s.chan c).idleRunning = true ∧
    max 24 (min 1023 (s.chan c).spacing.toNat) ≤ (s.chan c).idle
  | .attemptStart c =>
    (s.chan c).lineTx = .quiet ∧ (s.chan c).response = none ∧
    (∀ g, (s.chan c).flow = some g → g.phase ≠ .waiting) ∧ (s.chan c).engine.parser = .hunt ∧
    (s.chan c).idleRunning = true ∧ (s.chan c).holdTimer = none ∧
    (s.chan c).sequencer.state = .defer ∧
    (∃ e es, (s.chan c).txq = e :: es ∧
      ((s.chan c).mode = .run ∨ ((s.chan c).mode = .stopping ∧ e.active = true))) ∧
    max 24 (min 1023 (s.chan c).spacing.toNat) ≤ (s.chan c).idle
  | _ => False

/-- Every byte outside a set of addresses is the same in both states. -/
def State.SameMemoryBut (s t : State) (stored : List Nat) : Prop :=
  ∀ a, a ∉ stored → t.mem.read a = s.mem.read a

end Sys2Proof.Machine
end

