-- ==== Sys2Proof/Certificates/Slice0/Obligations.lean ====
section
/-!
DEFINITION. The claims about the model, each from the data book's rules. A claim gives the whole next
state wherever it can, so that what it does not name is unchanged. A host command is one taken with
RESET# high; with it low the part takes none (ResetsReturnToThePinResetState).
-/
section
open Sys2Proof Sys2Proof.Machine

/-! ### Steps, resets and the window -/

/-- A step with commands waiting takes the one at the front and answers what it does. -/
def Obligations.StepRunsTheFrontCommand : Prop :=
  ∀ (s : State) (c : Instr) (q : List Instr),
    s.pending = c :: q → step s = exec c { s with pending := q }

/-- A step with no command waiting takes an event that is due, else one REFCLK period passes: RESET#
takes its level, and keeps it where nothing is said of it (log 17); each receive line takes its level,
the one the segment puts there or, where nothing is said of it, the level the part itself sends; and
each channel has its period of the clock. The event taken is one that is due, and none is taken only
where none is. The model's choices: one queue and the idle step (log 1), the clock (log 4), the levels
(log 6), that a missing readback is due one tick after the middle of the stop bit (log 18), and which
of several due events comes first, of which nothing is said here (log 11). -/
def Obligations.EmptyQueueRunsTheDueEventOrTheClock : Prop :=
  (∀ s : State, s.pending = [] →
     (∀ i, s.dueEvent = some i → step s = exec i s) ∧
     (s.dueEvent = none → ∃ t, step s = .next t ∧
       t = { s with
             resetLow := t.resetLow, resetIn := s.resetIn.tail, rxdIn := s.rxdIn.tail
             chans := t.chans } ∧
       (t.resetLow = true ↔ s.resetLow = true ∨ s.resetIn.head? = some false) ∧
       ∀ c : Chan,
         (s.rxdIn = [] → t.chan c = { s.chan c with rxd := s.txd c }.clock) ∧
         (∀ w ws, s.rxdIn = w :: ws →
           t.chan c = { s.chan c with rxd := w.getLsbD c.val }.clock))) ∧
  (∀ s : State,
     (∀ i, s.dueEvent = some i → s.Due i) ∧ (s.dueEvent = none → ∀ i, ¬s.Due i))

/-- Every command answers a next state in every state, and leaves the queue as it was. That no
command faults or is refused is the model's reading (log 22), and that an event which cannot come
changes nothing is its choice (log 2). -/
def Obligations.EveryCommandAnswersAndKeepsTheQueue : Prop :=
  ∀ (i : Instr) (s : State), ∃ t, exec i s = .next t ∧ t.pending = s.pending

/-- After pin reset every location of the window but DATA and CHSEL reads its value of section 11.4,
whichever channel CHSEL selects, and CHSEL reads 00h. After pin reset every page is free, every
table and queue empty and every channel OFF. -/
def Obligations.ResetShowsTheRegisterMapAndEmptyTables : Prop :=
  (State.reset.readByte 0x23 = 0x00 ∧
   ∀ (c : Chan) (off : Offset), off ≠ 0x17 → off ≠ 0x23 →
     State.readByte { State.reset with chsel := c } off =
       if off = 0x00 then 0xA4 else if off = 0x01 then 0x01 else if off = 0x1C then 0x01
       else if off = 0x1F then 0x08 else if off = 0x20 then 0x20 else if off = 0x21 then 0x30
       else if off = 0x22 then 0x10 else if off = 0x27 then 0x2A else if off = 0x28 then 0x24
       else if off = 0x2A then 0x18 else if off = 0x2B then 0x03 else if off = 0x2C then 0x18
       else if off = 0x2D then 0x40 else if off = 0x2E then 0x04 else 0x00) ∧
  (State.reset.freeList.length = 256 ∧
   (∀ p : Page, State.reset.freeList[p.toNat]? = some p) ∧
   (∀ p : Page, State.reset.pageTable.record p = ⟨.free, false, none⟩) ∧
   State.reset.lastRx = 3 ∧ State.reset.lastTcq = 3 ∧ State.reset.reserve = 0x08 ∧
   State.reset.port = ⟨.detached, 0x00, 0x00⟩ ∧ State.reset.pool = .normal ∧
   State.reset.rfq = [] ∧ State.reset.arrival = 0x0000 ∧ State.reset.tcq = [] ∧
   State.reset.seqTable = [] ∧ (∀ i : Fin 16, State.reset.station[i] = ⟨false, 0x00, 0⟩) ∧
   State.reset.busy = none ∧ State.reset.cmdStatus = .none ∧ State.reset.event = 0 ∧
   State.reset.intAsserted = false ∧
   ∀ c : Chan,
     (State.reset.chan c).mode = .off ∧ (State.reset.chan c).engine.parser = .hunt ∧
     (State.reset.chan c).engine.room = .none ∧ (State.reset.chan c).engine.request = none ∧
     (State.reset.chan c).response = none ∧ (State.reset.chan c).txq = [] ∧
     (State.reset.chan c).seqCounter = 0 ∧
     (State.reset.chan c).sequencer = ⟨.idle, 0, 0, none, none⟩ ∧
     (State.reset.chan c).lineTx = .quiet ∧ (State.reset.chan c).flow = none ∧
     (State.reset.chan c).holdOutstanding = false ∧ (State.reset.chan c).refresh = none ∧
     (State.reset.chan c).holdTimer = none ∧ (State.reset.chan c).de = false ∧
     (State.reset.chan c).txd = true ∧ ∀ k : Fin 16, (State.reset.chan c).counters[k] = 0)

/-- PIN_RESET, RESET# going high after it was low, gives every item its pin-reset value. The contents
of pages are undefined after it and nothing is said of them (R42; log 5). The queue of commands, the
receive lines and what comes on the input pins are outside the part and stay (logs 6 and 17). While
RESET# is low no bus access is taken, INT# and DEn are released and TXDn is high. SRST keeps what R193
lists and, by the model's choice, the levels of the receive lines (log 6) and the byte last driven on D
(log 14); it gives everything else its pin-reset value; it completes with OK, which leaves CMD_DONE
alone set. -/
def Obligations.ResetsReturnToThePinResetState : Prop :=
  (∀ s : State, ∃ t, exec .pinReset s = .next t ∧
     t = { State.reset with
           pending := s.pending, resetIn := s.resetIn, rxdIn := s.rxdIn, mem := t.mem
           chans := t.chans } ∧
     ∀ c, t.chan c = { Channel.reset with rxd := (s.chan c).rxd }) ∧
  (∀ s : State, s.resetLow = true →
     (∀ i : Instr, isAccess i = true → exec i s = .next s) ∧ s.intAsserted = false ∧
     ∀ c : Chan, s.de c = false ∧ s.txd c = true) ∧
  (∀ s : State, s.resetLow = false → s.busy = none → ∃ t, exec .srst s = .next t ∧
     t = { State.reset with
           pending := s.pending, resetIn := s.resetIn, rxdIn := s.rxdIn, dOut := s.dOut
           cmdStatus := .ok, event := 0x0001, eventEn := s.eventEn, condEn := s.condEn
           snapEventEn := s.snapEventEn, snapDiv := s.snapDiv, snapSpacing := s.snapSpacing
           mem := s.mem, reserve := s.reserve, station := s.station
           holdLevel := s.holdLevel, resumeLevel := s.resumeLevel, holdTime := s.holdTime, chans := t.chans } ∧
     ∀ c, t.chan c =
       { Channel.reset with
         ownAddr := (s.chan c).ownAddr, div := (s.chan c).div, flags := (s.chan c).flags
         spacing := (s.chan c).spacing, gapLim := (s.chan c).gapLim, retry := (s.chan c).retry
         backoff := (s.chan c).backoff, ackTo := (s.chan c).ackTo, busyDly := (s.chan c).busyDly
         rxd := (s.chan c).rxd })

/-- While ABORT is in progress every strobe is refused without execution: CMD_REJECT is raised and
nothing else changes. -/
def Obligations.BusyUnitRefusesEveryStrobe : Prop :=
  ∀ (s : State) (c : Chan) (i : Instr), s.resetLow = false → s.busy = some c → i ∈ strobes →
    exec i s = .next { s with event := s.event ||| 0x0002 }

/-- A command that completes with a refusal code changes nothing but CMD_STATUS and CMD_DONE. The
premises say that no receive request waits (ALLOC would serve it first) and that no channel stands in
STOPPING with nothing left to wait for. -/
def Obligations.RefusedCommandOnlyReportsItsCode : Prop :=
  ∀ (s : State) (i : Instr), s.resetLow = false → s.busy = none → s.NoRequests → s.Settled →
    i ∈ strobes → ∃ t, exec i s = .next t ∧
      (t.cmdStatus ≠ .ok → t.cmdStatus ≠ .inProg → t = s.completed t.cmdStatus)

/-- A bus access, with RESET# high, CS# low and exactly one of RD# and WR# low, makes the command of
its offset; other signals make none. A host read of a location other than DATA drives the location's
byte and changes nothing but the snapshot of a 16-bit register whose low byte it reads; that the one
row LOW_BYTE_READ_SNAPSHOT stands for the read of every location, at DATA's offset for DATA_READ, is
the model's choice (log 14).
What every location reads, by the register map: identity, status codes, conditions, flags and
enables, arguments, results, the data port, the counts, the levels, and the window of the channel
CHSEL selects; the items of packed bytes at their places and 0 elsewhere; a strobe reads 00h. -/
def Obligations.HostReadReturnsTheLocation : Prop :=
  (∀ (resetN csN rdN wrN : Bool) (a : Offset) (d : Byte) (i : Option Instr),
     i = decodeBus resetN csN rdN wrN a d →
     (resetN = true → csN = false → rdN = false → wrN = true →
       (a = 0x17 → i = some .dataRead) ∧ (a ≠ 0x17 → i = some (.lowByteReadSnapshot a))) ∧
     (resetN = true → csN = false → rdN = true → wrN = false →
       (a = 0x05 → i = some (.eventWrite false d)) ∧ (a = 0x06 → i = some (.eventWrite true d)) ∧
       (a = 0x17 → i = some (.dataWrite d)) ∧
       (0x30 ≤ a.toNat → i.isSome = true ∧ i = strobes[a.toNat - 0x30]?) ∧
       (a.toNat < 0x30 → a ≠ 0x05 → a ≠ 0x06 → a ≠ 0x17 → i = some (.registerWrite a d))) ∧
     (resetN = false ∨ csN = true ∨ rdN = wrN → i = none)) ∧
  (∀ (s : State) (off : Offset), s.resetLow = false → off ≠ 0x17 →
     exec (.lowByteReadSnapshot off) s = .next
       { s with
         dOut := s.readByte off
         snapEvent := if off = 0x05 then hiByte s.event else s.snapEvent
         snapEventEn := if off = 0x07 then hiByte s.eventEn else s.snapEventEn
         snapFree := if off = 0x1B then hiByte (BitVec.ofNat 16 s.freeList.length) else s.snapFree
         snapDiv := if off = 0x25 then hiByte (s.chan s.chsel).div else s.snapDiv
         snapSpacing := if off = 0x28 then hiByte (s.chan s.chsel).spacing else s.snapSpacing }) ∧
  (∀ s : State, exec (.lowByteReadSnapshot 0x17) s = exec .dataRead s) ∧
  (∀ s : State,
     (s.readByte 0x00 = 0xA4 ∧ s.readByte 0x01 = 0x01) ∧
     (∀ x ∈ [(StatusCode.none, (0x00 : Byte)), (.ok, 0x01), (.inProg, 0x02), (.badArg, 0x10),
         (.badChain, 0x11), (.badLen, 0x12), (.check, 0x13), (.noRoom, 0x14), (.qFull, 0x15),
         (.empty, 0x16), (.notFound, 0x17), (.active, 0x18), (.state, 0x19)],
       s.cmdStatus = x.1 → s.readByte 0x02 = x.2) ∧
     ((s.readByte 0x03).getLsbD 0 = !s.rfq.isEmpty ∧ (s.readByte 0x03).getLsbD 1 = !s.tcq.isEmpty ∧
       (s.readByte 0x03).getLsbD 2 = s.busy.isSome ∧
       (s.readByte 0x03).getLsbD 3 = (s.pool == .low) ∧ s.readByte 0x03 &&& 0xF0 = 0) ∧
     (s.readByte 0x04 = s.condEn ∧ s.readByte 0x05 = s.event.extractLsb' 0 8 ∧
       s.readByte 0x07 = s.eventEn.extractLsb' 0 8) ∧
     (∀ (i : Fin 6) (off : Offset), off.toNat = 0x09 + i.val → s.readByte off = s.arg[i]) ∧
     (∀ (i : Fin 8) (off : Offset), off.toNat = 0x0F + i.val → s.readByte off = s.res[i]) ∧
     (s.readByte 0x18 = s.port.page ∧ s.readByte 0x19 = s.port.offset) ∧
     (∀ x ∈ [(PortState.detached, (0x00 : Byte)), (.attached, 0x01), (.ended, 0x02)],
       s.port.mode = x.1 → s.readByte 0x1A = x.2) ∧
     (s.freeList.length ≤ 256 → (s.readByte 0x1B).toNat = s.freeList.length % 256) ∧
     (s.rfq.length ≤ 32 → (s.readByte 0x1D).toNat = s.rfq.length) ∧
     (s.tcq.length ≤ 16 → (s.readByte 0x1E).toNat = s.tcq.length) ∧
     (s.readByte 0x06 = s.snapEvent ∧ s.readByte 0x08 = s.snapEventEn ∧
       s.readByte 0x1C = s.snapFree ∧ s.readByte 0x26 = s.snapDiv ∧
       s.readByte 0x29 = s.snapSpacing) ∧
     (s.readByte 0x1F = s.reserve ∧ s.readByte 0x20 = s.holdLevel ∧
       s.readByte 0x21 = s.resumeLevel ∧ s.readByte 0x22 = s.holdTime ∧
       (s.readByte 0x23).toNat = s.chsel.val) ∧
     (∀ ch, ch = s.chan s.chsel →
       (s.readByte 0x24 = ch.ownAddr ∧ s.readByte 0x25 = ch.div.extractLsb' 0 8 ∧
         s.readByte 0x27 = ch.flags ∧ s.readByte 0x28 = ch.spacing.extractLsb' 0 8 ∧
         s.readByte 0x2A = ch.gapLim ∧ s.readByte 0x2B = ch.retry ∧ s.readByte 0x2C = ch.backoff ∧
         s.readByte 0x2D = ch.ackTo ∧ s.readByte 0x2E = ch.busyDly) ∧
       ((s.readByte 0x2F).getLsbD 7 = ch.response.isSome ∧
         (s.readByte 0x2F).getLsbD 6 = ch.holdOutstanding ∧
         (s.readByte 0x2F).getLsbD 5 = ch.holdTimer.isSome) ∧
       (∀ x ∈ [(SeqState.idle, (0 : BitVec 3)), (.defer, 1), (.attempt, 2), (.backoff, 3),
           (.awaitAck, 4), (.busyWait, 5), (.completeWait, 6)],
         ch.sequencer.state = x.1 → (s.readByte 0x2F).extractLsb' 2 3 = x.2) ∧
       (∀ x ∈ [(Mode.off, (0 : BitVec 2)), (.run, 1), (.stopping, 2), (.aborting, 3)],
         ch.mode = x.1 → (s.readByte 0x2F).extractLsb' 0 2 = x.2)) ∧
     ∀ off : Offset, 0x30 ≤ off.toNat → s.readByte off = 0x00)

/-- A host write stores the byte at once in the register at its offset, the bits the register does
not define forced to 0, and changes nothing else; a write to a read-only location changes nothing.
That the one row REGISTER_WRITE stands for the write of every such location is the model's choice
(log 14). -/
def Obligations.RegisterWriteStoresTheByte : Prop :=
  ∀ (s : State) (v : Byte), s.resetLow = false →
    exec (.registerWrite 0x04 v) s = .next { s with condEn := v &&& 0x0F } ∧
    exec (.registerWrite 0x07 v) s =
      .next { s with eventEn := (s.eventEn &&& 0xFF00) ||| ((0x00 : Byte) ++ v) } ∧
    exec (.registerWrite 0x08 v) s =
      .next { s with eventEn := (s.eventEn &&& 0x00FF) ||| ((v &&& 0x1F) ++ (0x00 : Byte)) } ∧
    (∀ (i : Fin 6) (off : Offset), off.toNat = 0x09 + i.val →
      exec (.registerWrite off v) s = .next { s with arg := s.arg.set i v }) ∧
    exec (.registerWrite 0x1F v) s = .next { s with reserve := v } ∧
    exec (.registerWrite 0x20 v) s = .next { s with holdLevel := v } ∧
    exec (.registerWrite 0x21 v) s = .next { s with resumeLevel := v } ∧
    exec (.registerWrite 0x22 v) s = .next { s with holdTime := v } ∧
    (∀ d : Chan, d.val = v.toNat % 4 → exec (.registerWrite 0x23 v) s = .next { s with chsel := d }) ∧
    exec (.registerWrite 0x24 v) s =
      .next (s.updChan s.chsel fun ch => { ch with ownAddr := v }) ∧
    exec (.registerWrite 0x25 v) s =
      .next (s.updChan s.chsel fun ch => { ch with div := (ch.div &&& 0xFF00) ||| ((0x00 : Byte) ++ v) }) ∧
    exec (.registerWrite 0x26 v) s =
      .next (s.updChan s.chsel fun ch =>
        { ch with div := (ch.div &&& 0x00FF) ||| (v ++ (0x00 : Byte)) }) ∧
    exec (.registerWrite 0x27 v) s =
      .next (s.updChan s.chsel fun ch => { ch with flags := v &&& 0x3F }) ∧
    exec (.registerWrite 0x28 v) s =
      .next (s.updChan s.chsel fun ch =>
        { ch with spacing := (ch.spacing &&& 0xFF00) ||| ((0x00 : Byte) ++ v) }) ∧
    exec (.registerWrite 0x29 v) s =
      .next (s.updChan s.chsel fun ch =>
        { ch with spacing := (ch.spacing &&& 0x00FF) ||| (v ++ (0x00 : Byte)) }) ∧
    exec (.registerWrite 0x2A v) s =
      .next (s.updChan s.chsel fun ch => { ch with gapLim := v }) ∧
    exec (.registerWrite 0x2B v) s =
      .next (s.updChan s.chsel fun ch => { ch with retry := v }) ∧
    exec (.registerWrite 0x2C v) s =
      .next (s.updChan s.chsel fun ch => { ch with backoff := v }) ∧
    exec (.registerWrite 0x2D v) s =
      .next (s.updChan s.chsel fun ch => { ch with ackTo := v }) ∧
    exec (.registerWrite 0x2E v) s =
      .next (s.updChan s.chsel fun ch => { ch with busyDly := v }) ∧
    ∀ off : Offset,
      off.toNat ≤ 0x03 ∨ (0x0F ≤ off.toNat ∧ off.toNat ≤ 0x16) ∨
        (0x18 ≤ off.toNat ∧ off.toNat ≤ 0x1E) ∨ off = 0x2F →
      exec (.registerWrite off v) s = .next s

/-- A write to a byte of EVENT clears each flag written as 1 and nothing else. INT# is asserted
exactly while an enabled flag is set or an enabled condition true. -/
def Obligations.EventFlagsDriveTheInterruptLine : Prop :=
  (∀ (s : State) (v : Byte), s.resetLow = false →
     exec (.eventWrite false v) s = .next { s with event := s.event &&& ~~~((0x00 : Byte) ++ v) } ∧
     exec (.eventWrite true v) s = .next { s with event := s.event &&& ~~~(v ++ (0x00 : Byte)) }) ∧
  (∀ s : State, s.resetLow = false → (s.intAsserted = true ↔
     (∃ i, s.event.getLsbD i = true ∧ s.eventEn.getLsbD i = true) ∨
     (s.rfq ≠ [] ∧ s.condEn.getLsbD 0 = true) ∨ (s.tcq ≠ [] ∧ s.condEn.getLsbD 1 = true) ∨
     (s.busy.isSome = true ∧ s.condEn.getLsbD 2 = true) ∨
     (s.pool = .low ∧ s.condEn.getLsbD 3 = true)))

/-- DATA in ATTACHED reads or stores the byte at the pointer, byte off mod 64 of the page at position
off / 64 of the chain, and the pointer advances or the port enters END at the chain's last byte; in
DETACHED or END nothing is read or stored and PORT_FAULT is raised. -/
def Obligations.DataPortReachesTheByteAtThePointer : Prop :=
  ∀ (s : State) (v : Byte), s.resetLow = false →
    (∀ (p : Page) (after : DataPort), s.port.mode = .attached →
      (s.chainPages s.port.page)[s.port.offset.toNat / 64]? = some p →
      after =
        (if s.port.offset.toNat + 1 < 64 * s.pageCount s.port.page then
          ⟨.attached, s.port.page, s.port.offset + 1⟩
        else ⟨.ended, s.port.page, s.port.offset⟩) →
      exec .dataRead s = .next
        { s with
          dOut := s.mem.read (64 * p.toNat + s.port.offset.toNat % 64), port := after } ∧
      exec (.dataWrite v) s = .next
        { s with
          mem := s.mem.write (64 * p.toNat + s.port.offset.toNat % 64) v, port := after }) ∧
    (s.port.mode ≠ .attached →
      exec .dataRead s = .next { s with dOut := 0x00, event := s.event ||| 0x0400 } ∧
      exec (.dataWrite v) s = .next { s with event := s.event ||| 0x0400 })

/-! ### Frame memory, chains and the allocator -/

/-- A byte stored at a chain offset below 64 x k lies at byte off mod 64 of the page at position off
/ 64 along the chain, reads back there, and no other byte of memory changes; that an offset at or
above 64 x k, which no block uses, stores nothing is the model's choice (log 15). Bytes stored from an
offset on, as header areas are, go one after the other to successive offsets. -/
def Obligations.ChainByteStoresAndReadsBack : Prop :=
  (∀ (s : State) (h : Page) (off : Nat) (v : Byte), s.mem.wf →
     (∀ p, (s.chainPages h)[off / 64]? = some p →
       s.chainAddr h off = some (64 * p.toNat + off % 64) ∧
       s.storeChain h off v = { s with mem := s.mem.write (64 * p.toNat + off % 64) v } ∧
       (s.storeChain h off v).chainByte h off = v ∧ (s.storeChain h off v).mem.wf ∧
       s.SameMemoryBut (s.storeChain h off v) [64 * p.toNat + off % 64]) ∧
     (64 * s.pageCount h ≤ off → s.chainAddr h off = none ∧ s.storeChain h off v = s)) ∧
  (∀ (s : State) (h : Page) (off : Nat),
     s.storeBytes h off [] = s ∧
     ∀ (b : Byte) (bs : List Byte),
       s.storeBytes h off (b :: bs) = (s.storeChain h off b).storeBytes h (off + 1) bs)

/-- A grant of n pages takes the first n from the head of the free list and links them in the order
taken into one chain, the first its head, every page with the given owner; the other page records
and frame memory are as before. A release appends the pages of the whole chain to the tail of the
free list in chain order and makes them FREE, no, END; the free count rises by the page count; the
other page records and frame memory are as before. A change of holder rewrites the owner of the
chain's pages and nothing else: head marks and links stay, the other page records stay, and every
chain keeps its pages. -/
def Obligations.GrantReleaseAndHolderChangeActOnThePageRecords : Prop :=
  (∀ (s : State) (o : Owner) (n : Nat),
     s.pageTable.wf → s.freeList.Nodup → n ≤ s.freeList.length → o ≠ .free →
     (s.grant o n).freeList = s.freeList.drop n ∧
     (s.grant o n).freeCount + n = s.freeCount ∧
     (∀ i p, i < n → s.freeList[i]? = some p →
       (s.grant o n).pageTable.record p =
         ⟨o, i == 0, if i + 1 < n then s.freeList[i + 1]? else none⟩) ∧
     (∀ p, p ∉ s.freeList.take n → (s.grant o n).pageTable.record p = s.pageTable.record p) ∧
     (s.grant o n).mem = s.mem ∧ (s.grant o n).pageTable.wf ∧
     (∀ h, s.freeList.head? = some h → 1 ≤ n → n ≤ 4 →
       (s.grant o n).chainPages h = s.freeList.take n)) ∧
  (∀ (s : State) (h : Page), s.pageTable.wf →
     (s.release h).freeList = s.freeList ++ s.chainPages h ∧
     (s.release h).freeCount = s.freeCount + s.pageCount h ∧
     (∀ p, p ∈ s.chainPages h → (s.release h).pageTable.record p = ⟨.free, false, none⟩) ∧
     (∀ p, p ∉ s.chainPages h → (s.release h).pageTable.record p = s.pageTable.record p) ∧
     (s.release h).mem = s.mem ∧ (s.release h).pageTable.wf) ∧
  (∀ (s : State) (h : Page) (o : Owner), s.pageTable.wf →
     s.setOwner h o = { s with pageTable := (s.setOwner h o).pageTable } ∧
     (∀ p, p ∈ s.chainPages h →
       (s.setOwner h o).pageTable.record p = { s.pageTable.record p with owner := o }) ∧
     (∀ p, p ∉ s.chainPages h → (s.setOwner h o).pageTable.record p = s.pageTable.record p) ∧
     (∀ p, (s.setOwner h o).chainPages p = s.chainPages p) ∧ (s.setOwner h o).pageTable.wf)

/-- A grant and a release are each one change of the free count, which the monitor judges: at or
below T it goes from NORMAL to LOW, at or above max(U, T + 1) from LOW to NORMAL, raising the event
and acting on every channel; in every other case nothing changes. The rows of the table of entry to
LOW, and that it leaves every other channel as it was. The rows of the table of entry to NORMAL; the
refresh timer stops in each (R153; log 20). The rows that the tables do not have leave the slot as
it is (log 21). A placed flow frame's limit, d and own address are 0 until its first attempt, by the
model's choice (log 12). -/
def Obligations.PoolMonitorJudgesTheFreeCountAndFillsTheSlots : Prop :=
  (∀ (s : State) (o : Owner) (n : Nat) (h : Page),
     s.grant o n =
       State.poolJudge
         { s with
           pageTable := (s.grant o n).pageTable, freeList := s.freeList.drop n } ∧
     s.release h =
       State.poolJudge
         { s with
           pageTable := (s.release h).pageTable, freeList := s.freeList ++ s.chainPages h }) ∧
  (∀ s : State,
     (s.pool = .normal → s.freeCount ≤ s.holdLevel.toNat →
       s.poolJudge =
         { s with
           pool := .low, event := s.event ||| 0x0004, chans := s.chans.map Channel.enterLow }) ∧
     (s.pool = .normal → s.holdLevel.toNat < s.freeCount → s.poolJudge = s) ∧
     (s.pool = .low → max s.resumeLevel.toNat (s.holdLevel.toNat + 1) ≤ s.freeCount →
       s.poolJudge =
         { s with
           pool := .normal, event := s.event ||| 0x0008
           chans := s.chans.map Channel.enterNormal }) ∧
     (s.pool = .low → s.freeCount < max s.resumeLevel.toNat (s.holdLevel.toNat + 1) →
       s.poolJudge = s)) ∧
  (∀ ch : Channel,
     (ch.mode = .off ∨ ch.mode = .aborting → ch.enterLow = ch) ∧
     (ch.mode = .run ∨ ch.mode = .stopping →
       (ch.flow = none → ch.holdOutstanding = true →
         ch.enterLow = { ch with flow := some (newFlow false) }) ∧
       (ch.flow = none → ch.holdOutstanding = false → ch.flags.getLsbD 4 = true →
         0x01 ≤ ch.ownAddr.toNat → ch.ownAddr.toNat ≤ 0xEF →
         ch.enterLow = { ch with flow := some (newFlow false) }) ∧
       (ch.flow = none → ch.holdOutstanding = false →
         ch.flags.getLsbD 4 = false ∨ ch.ownAddr.toNat = 0 ∨ 0xEF < ch.ownAddr.toNat →
         ch.enterLow = ch) ∧
       (∀ f, ch.flow = some f → f.resume = true → f.phase ≠ .sending →
         ch.enterLow = { ch with flow := some (newFlow false) }) ∧
       (∀ f, ch.flow = some f → f.resume = false → f.phase ≠ .sending → ch.enterLow = ch) ∧
       (∀ f, ch.flow = some f → f.phase = .sending → ch.enterLow = ch))) ∧
  (∀ ch : Channel,
     (∀ f, ch.flow = some f → f.resume = false → f.phase ≠ .sending → ch.holdOutstanding = false →
       ch.enterNormal = { ch with flow := none, refresh := none }) ∧
     (∀ f, ch.flow = some f → f.resume = false → f.phase ≠ .sending → ch.holdOutstanding = true →
       ch.enterNormal = { ch with flow := some (newFlow true), refresh := none }) ∧
     (ch.flow = none → ch.holdOutstanding = true →
       ch.enterNormal = { ch with flow := some (newFlow true), refresh := none }) ∧
     (ch.flow = none → ch.holdOutstanding = false → ch.enterNormal = { ch with refresh := none }) ∧
     (∀ f, ch.flow = some f → f.resume = true → f.phase ≠ .sending →
       ch.enterNormal = { ch with refresh := none }) ∧
     (∀ f, ch.flow = some f → f.phase = .sending → ch.enterNormal = { ch with refresh := none }))

/-- ALLOC: BADARG outside 1 to 4; otherwise the waiting receive requests are served first, and then
the chain is granted to the host when the free count is at least ARG0, with its head page in RES0, and
refused NOROOM when it is less. -/
def Obligations.AllocGrantsOrRefuses : Prop :=
  ∀ (s : State) (n : Nat), s.resetLow = false → s.busy = none → n = s.arg[0].toNat →
    (n = 0 ∨ 4 < n → exec .alloc s = .next (s.completed .badArg)) ∧
    (1 ≤ n → n ≤ 4 → s.serveAll.freeCount < n →
      exec .alloc s = .next (s.serveAll.completed .noRoom).settle) ∧
    (∀ h, 1 ≤ n → n ≤ 4 → n ≤ s.serveAll.freeCount → s.serveAll.freeList.head? = some h →
      exec .alloc s = .next
        (State.completed
          { s.serveAll.grant .held n with res := s.res.set 0 h } .ok).settle) ∧
    (s.NoRequests → s.serveAll = s)

/-- RELEASE and SEEK of a page that is not the head of a HELD chain are refused BADCHAIN; RELEASE of
one releases the chain and detaches the data port from it; SEEK of one is refused BADARG at or beyond
64 x k and otherwise attaches the data port at the offset. -/
def Obligations.ReleaseAndSeekOfHeldChains : Prop :=
  ∀ (s : State) (h : Page), s.resetLow = false → s.busy = none → h = s.arg[0] →
    (¬((s.pageTable.record h).headMark = true ∧ (s.pageTable.record h).owner = .held) →
      exec .release s = .next (s.completed .badChain) ∧
      exec .seek s = .next (s.completed .badChain)) ∧
    ((s.pageTable.record h).headMark = true → (s.pageTable.record h).owner = .held →
      exec .release s = .next
        (State.completed { s.release h with port := s.portWithout h } .ok).settle ∧
      (64 * s.pageCount h ≤ s.arg[1].toNat → exec .seek s = .next (s.completed .badArg)) ∧
      (s.arg[1].toNat < 64 * s.pageCount h →
        exec .seek s = .next
          (State.completed { s with port := ⟨.attached, h, s.arg[1]⟩ } .ok)))

/-- The allocator serves the waiting receive request that is next in the rotation: granted from the
free list when the free count is at least P + H, H above 64 acting as 64, otherwise refused; either
way its channel becomes the last served, and a STOPPING channel whose conditions hold then enters
OFF. With none waiting nothing is served (log 2). Serving every request leaves none; serving for a
channel serves one after another in the rotation until that channel has none. -/
def Obligations.ReceiveRequestIsServedInRotation : Prop :=
  ∀ (s : State),
    (∀ (c : Chan) (n : Nat) (h : Page) (u : State), s.NextRequest c n →
      n + min 64 s.reserve.toNat ≤ s.freeCount → s.freeList.head? = some h →
      u = (State.grant
          (State.updChan { s with lastRx := c } c fun ch =>
            { ch with engine := { ch.engine with request := none, room := .storing h } })
          (.filling c) n).settle →
      exec .receiveRequestServed s = .next u ∧ s.serveOne = u) ∧
    (∀ (c : Chan) (n : Nat) (u : State), s.NextRequest c n →
      s.freeCount < n + min 64 s.reserve.toNat →
      u = (State.updChan { s with lastRx := c } c fun ch =>
          { ch with engine := { ch.engine with request := none, room := .noRoom } }).settle →
      exec .receiveRequestServed s = .next u ∧ s.serveOne = u) ∧
    (s.NoRequests → exec .receiveRequestServed s = .next s.settle ∧ s.serveOne = s) ∧
    s.serveAll = s.serveOne.serveOne.serveOne.serveOne ∧ s.serveAll.NoRequests ∧
    ∀ (c : Chan) (k : Nat),
      ((s.chan c).engine.request = none → s.serveFor c k = s) ∧
      ((s.chan c).engine.request ≠ none → s.serveFor c (k + 1) = s.serveOne.serveFor c k) ∧
      ((s.serveFor c 4).chan c).engine.request = none

/-! ### The queues -/

/-- TAKE is refused EMPTY on an empty queue; otherwise the head entry leaves the queue, its chain
becomes HELD, RES0 to RES7 take its fields and the data port is attached at chain offset 0. The codes
of the classes are those of section 11.2. -/
def Obligations.TakeHandsOverTheOldestFrame : Prop :=
  (AddrClass.own.code = 0 ∧ AddrClass.broadcast.code = 1 ∧ AddrClass.listed.code = 2 ∧
   AddrClass.any.code = 3) ∧
  ∀ s : State, s.resetLow = false → s.busy = none →
    (s.rfq = [] → exec .take s = .next (s.completed .empty)) ∧
    (∀ (e : RxEntry) (rest : List RxEntry), s.rfq = e :: rest →
      exec .take s = .next
        (State.completed
          { s with
            rfq := rest
            pageTable := s.pageTable.own .held (s.chainPages e.head)
            res := #v[e.head, BitVec.ofNat 8 (e.cls.code * 4 + e.chan.val), e.dest, e.src, e.ctrl,
              e.len, e.arrival.extractLsb' 0 8, e.arrival.extractLsb' 8 8]
            port := ⟨.attached, e.head, 0x00⟩ } .ok))

/-- SUBMIT's check byte is the bitwise complement of DEST exclusive-ORed with LEN: with a HELD chain
named, any other ARG5 refuses the command with CHECK whatever the other arguments hold, and the right
one never does. -/
def Obligations.SubmitComparesTheCheckByte : Prop :=
  (∀ s : State, s.resetLow = false → s.busy = none → s.isHeldHead s.arg[0] = true →
    (s.arg[5] ≠ ~~~(s.arg[2] ^^^ s.arg[3]) → exec .submit s = .next (s.completed .check)) ∧
    (s.arg[5] = ~~~(s.arg[2] ^^^ s.arg[3]) →
      ∃ t, exec .submit s = .next t ∧ t.cmdStatus ≠ .check)) ∧
  checkByte 0x7C 0x64 = 0xE7 ∧ checkByte 0x31 0x14 = 0xDA ∧ checkByte 0xFF 0x00 = 0x00 ∧
  checkByte 0x05 0x05 = 0xFF

/-- SUBMIT's other refusals, each where the tests before it pass: BADCHAIN, BADARG for each of its
five causes, BADLEN, QFULL. -/
def Obligations.SubmitRefusesInTheOrderOfItsTests : Prop :=
  ∀ (s : State), s.resetLow = false → s.busy = none →
    (s.isHeldHead s.arg[0] = false → exec .submit s = .next (s.completed .badChain)) ∧
    (s.isHeldHead s.arg[0] = true → s.arg[5] = ~~~(s.arg[2] ^^^ s.arg[3]) →
      (4 ≤ s.arg[1].toNat % 8 → exec .submit s = .next (s.completed .badArg)) ∧
      ∀ c : Chan, c.val = s.arg[1].toNat % 8 →
        (s.arg[2] = 0x00 ∨ 240 < s.arg[3].toNat ∨
            (s.arg[1].getLsbD 7 = true ∧ 0xF0 ≤ s.arg[2].toNat) ∨
            (s.chan c).ownAddr = 0x00 ∨ 0xF0 ≤ (s.chan c).ownAddr.toNat →
          exec .submit s = .next (s.completed .badArg)) ∧
        (¬(s.arg[2] = 0x00 ∨ 240 < s.arg[3].toNat ∨
            (s.arg[1].getLsbD 7 = true ∧ 0xF0 ≤ s.arg[2].toNat) ∨
            (s.chan c).ownAddr = 0x00 ∨ 0xF0 ≤ (s.chan c).ownAddr.toNat) →
          (s.pageCount s.arg[0] < pagesFor s.arg[3].toNat →
            exec .submit s = .next (s.completed .badLen)) ∧
          (pagesFor s.arg[3].toNat ≤ s.pageCount s.arg[0] → 8 ≤ (s.chan c).txq.length →
            exec .submit s = .next (s.completed .qFull))))

/-- An accepted SUBMIT: the entry with the channel's sequence number and own address joins the tail of
the queue, the sequence counter advances, the transmit record header is stored at chain offsets 0 to
7, the chain becomes QUEUED_TX, RES0 takes the sequence number, the data port leaves the chain, and an
IDLE sequencer of a RUN channel goes to DEFER. -/
def Obligations.SubmitQueuesTheChain : Prop :=
  ∀ (s : State) (c : Chan) (e : TxEntry), s.resetLow = false → s.busy = none →
    s.isHeldHead s.arg[0] = true → s.arg[5] = ~~~(s.arg[2] ^^^ s.arg[3]) →
    c.val = s.arg[1].toNat % 8 → s.arg[2] ≠ 0x00 → s.arg[3].toNat ≤ 240 →
    (s.arg[1].getLsbD 7 = true → s.arg[2].toNat ≤ 0xEF) →
    (s.chan c).ownAddr ≠ 0x00 → (s.chan c).ownAddr.toNat ≤ 0xEF →
    pagesFor s.arg[3].toNat ≤ s.pageCount s.arg[0] → (s.chan c).txq.length < 8 →
    e = ⟨s.arg[0], s.pageCount s.arg[0], s.arg[2], (s.chan c).ownAddr, s.arg[1].getLsbD 7,
      (s.chan c).seqCounter, s.arg[3], s.arg[4], false⟩ →
    exec .submit s = .next
      (State.completed
        { State.updChan s c fun ch =>
            { ch with
              txq := ch.txq ++ [e], seqCounter := ch.seqCounter + 1
              sequencer :=
                if ch.mode = .run ∧ ch.sequencer.state = .idle then
                  { ch.sequencer with state := .defer, timer := none }
                else ch.sequencer } with
          mem := (s.storeBytes e.head 0
            [BitVec.ofNat 8 c.val, e.dest, e.src, packCtrl .data e.ar e.seq, e.len,
             BitVec.ofNat 8 e.pages, e.tag, 0x00]).mem
          pageTable := s.pageTable.own (.queuedTx c) (s.chainPages e.head)
          res := s.res.set 0 (e.seq.setWidth 8)
          port := s.portWithout e.head } .ok)

/-- CANCEL: BADARG above channel 3; the oldest entry with the tag that is not active leaves the queue
and its chain returns to the host, with its head page in RES0; ACTIVE if only the active entry has the
tag, NOTFOUND if none has. A deferring sequencer whose queue is emptied goes to IDLE. -/
def Obligations.CancelWithdrawsTheOldestMatch : Prop :=
  ∀ s : State, s.resetLow = false → s.busy = none →
    (4 ≤ s.arg[0].toNat → exec .cancel s = .next (s.completed .badArg)) ∧
    ∀ c : Chan, c.val = s.arg[0].toNat →
      (∀ (before after : List TxEntry) (e : TxEntry),
        (s.chan c).txq = before ++ e :: after → e.active = false → e.tag = s.arg[1] →
        (∀ x ∈ before, x.active = true ∨ x.tag ≠ s.arg[1]) →
        exec .cancel s = .next
          (State.completed
            { State.updChan s c fun ch =>
                { ch with
                  txq := before ++ after
                  sequencer :=
                    if before ++ after = [] ∧ ch.sequencer.state = .defer then
                      { ch.sequencer with state := .idle }
                    else ch.sequencer } with
              pageTable := s.pageTable.own .held (s.chainPages e.head)
              res := s.res.set 0 e.head } .ok)) ∧
      ((∀ x ∈ (s.chan c).txq, x.tag = s.arg[1] → x.active = true) →
        (∃ x ∈ (s.chan c).txq, x.tag = s.arg[1]) →
        exec .cancel s = .next (s.completed .active)) ∧
      ((∀ x ∈ (s.chan c).txq, x.tag ≠ s.arg[1]) →
        exec .cancel s = .next (s.completed .notFound))

/-- FLUSH: BADARG above channel 3; otherwise every entry that is not active leaves the queue, head to
tail, each chain is released in that order, and RES0 takes the number of them. A deferring sequencer
whose queue is emptied goes to IDLE. -/
def Obligations.FlushReleasesWhatIsNotActive : Prop :=
  ∀ s : State, s.resetLow = false → s.busy = none →
    (4 ≤ s.arg[0].toNat → exec .flush s = .next (s.completed .badArg)) ∧
    ∀ (c : Chan) (kept gone : List TxEntry) (u : State), c.val = s.arg[0].toNat →
      kept = (s.chan c).txq.filter (fun e => e.active) →
      gone = (s.chan c).txq.filter (fun e => !e.active) →
      u = gone.foldl (fun u e => u.release e.head)
        (s.updChan c fun ch =>
          { ch with
            txq := kept
            sequencer :=
              if kept = [] ∧ ch.sequencer.state = .defer then
                { ch.sequencer with state := .idle }
              else ch.sequencer }) →
      exec .flush s = .next
        (State.completed
          { u with res := s.res.set 0 (BitVec.ofNat 8 gone.length) } .ok).settle

/-- POPDONE is refused EMPTY on an empty queue; otherwise the head record leaves the queue and RES0 to
RES4 take its fields; the place goes to the waiting sequencer that is next in the rotation, if any,
which completes at the same event and becomes the last served. The codes of the outcomes are those of
section 11.3. -/
def Obligations.PopdoneHandsOverTheOldestRecord : Prop :=
  (TxOutcome.sent.code = 0 ∧ TxOutcome.acked.code = 1 ∧ TxOutcome.failCollision.code = 2 ∧
   TxOutcome.failNoAck.code = 3 ∧ TxOutcome.failBusy.code = 4 ∧ TxOutcome.aborted.code = 5) ∧
  ∀ s : State, s.resetLow = false → s.busy = none →
    (s.tcq = [] → exec .popdone s = .next (s.completed .empty)) ∧
    ∀ (r : TxRecord) (rest : List TxRecord) (u : State), s.tcq = r :: rest →
      u = { s with
            tcq := rest
            res := #v[BitVec.ofNat 8 r.chan.val, r.tag, r.seq.setWidth 8,
              BitVec.ofNat 8 r.outcome.code, BitVec.ofNat 8 r.attempts, s.res[5], s.res[6],
              s.res[7]] } →
      ((∀ c : Chan, (s.chan c).sequencer.state ≠ .completeWait) →
        exec .popdone s = .next (u.completed .ok).settle) ∧
      (∀ (c : Chan) (o : TxOutcome), s.NextWaiting c o →
        exec .popdone s = .next
          ((State.finishEntry { u with lastTcq := c } c o).completed .ok).settle)

/-- A completion with room appends its record, releases the chain, counts TX_FRAMES for SENT and
ACKED, and takes the entry off the head; the attempt count returns to 0 and the sequencer goes to
DEFER if another entry is queued and the channel is RUN, to IDLE otherwise. With the completion queue
full the sequencer waits with its outcome and TCQ_STALL is raised. -/
def Obligations.CompletionRecordsAndReleases : Prop :=
  ∀ (s : State) (c : Chan) (o : TxOutcome) (e : TxEntry) (es : List TxEntry) (u v : State),
    (s.chan c).txq = e :: es →
    u = State.release
      { s with tcq := s.tcq ++ [⟨c, e.tag, e.seq, o, (s.chan c).sequencer.attempts⟩] } e.head →
    v = (if o = .sent ∨ o = .acked then u.count c .txFrames else u) →
    (s.tcq.length < 16 → s.claim c o = s.finishEntry c o) ∧
    s.finishEntry c o =
      (v.updChan c fun ch =>
        { ch with
          txq := es
          sequencer :=
            { ch.sequencer with
              state := if ch.mode = .run ∧ es ≠ [] then .defer else .idle
              attempts := 0, outcome := none, timer := none } }) ∧
    (16 ≤ s.tcq.length →
      s.claim c o =
        { State.updChan s c fun ch =>
            { ch with
              sequencer :=
                { ch.sequencer with state := .completeWait, outcome := some o, timer := none } } with
          event := s.event ||| 0x0080 })


/-! ### Channels, tables and counters -/

/-- ENABLE: BADARG above channel 3, STATE unless the channel is OFF; otherwise DIV and the stop-bit
setting are latched, the parser is in HUNT, line idle time and line-fault measurement start afresh
from the level of the line, the hold timer stops, the channel is RUN, and an IDLE sequencer with an
entry queued goes to DEFER. The prescaler restarts (log 4). -/
def Obligations.EnableStartsTheChannel : Prop :=
  ∀ s : State, s.resetLow = false → s.busy = none →
    (4 ≤ s.arg[0].toNat → exec .enable s = .next (s.completed .badArg)) ∧
    ∀ c : Chan, c.val = s.arg[0].toNat →
      ((s.chan c).mode ≠ .off → exec .enable s = .next (s.completed .state)) ∧
      ((s.chan c).mode = .off →
        exec .enable s = .next
          (State.completed
            (s.updChan c fun ch =>
              { ch with
                mode := .run, latchedDiv := ch.div, latchedTwoStop := ch.flags.getLsbD 0
                prescale := 0
                rx := if ch.rxd then .looking else .waitHigh
                lowPeriod := if ch.rxd then none else some ⟨0, false⟩
                idle := 0, idleRunning := ch.rxd, idlePhase := 0
                engine := Engine.idle .hunt, holdTimer := none
                sequencer :=
                  if ch.txq ≠ [] ∧ ch.sequencer.state = .idle then
                    { ch.sequencer with state := .defer, timer := none }
                  else ch.sequencer }) .ok))

/-- DISABLE: BADARG above channel 3, STATE unless the channel is RUN; otherwise the channel becomes
STOPPING, and enters OFF at the same event if the stopping conditions hold. Every STOPPING channel
whose conditions hold together enters OFF, CHAN_OFF is raised if there is one, and nothing else
changes; afterwards there is none. -/
def Obligations.DisabledChannelEntersOffWhenItMayStop : Prop :=
  (∀ s : State, s.resetLow = false → s.busy = none →
     (4 ≤ s.arg[0].toNat → exec .disable s = .next (s.completed .badArg)) ∧
     ∀ c : Chan, c.val = s.arg[0].toNat →
       ((s.chan c).mode ≠ .run → exec .disable s = .next (s.completed .state)) ∧
       ((s.chan c).mode = .run →
         exec .disable s = .next
           (State.completed (s.updChan c fun ch => { ch with mode := .stopping }) .ok).settle)) ∧
  (∀ s : State,
     (∀ c, (s.chan c).MayStop → s.settle.chan c = (s.chan c).atOff) ∧
     (∀ c, ¬(s.chan c).MayStop → s.settle.chan c = s.chan c) ∧
     ((∃ c, (s.chan c).MayStop) →
       s.settle = { s with event := s.event ||| 0x0040, chans := s.settle.chans }) ∧
     ((∀ c, ¬(s.chan c).MayStop) → s.settle = s) ∧
     s.settle.Settled)

/-- ABORT: BADARG above channel 3; OK without effect on a channel in OFF; on a channel in RUN or
STOPPING the slots empty, the flag clears and the timers stop, the frame in flight is ended and its
chain released without a count, and an active entry that is not in ATTEMPT completes ABORTED. With
the line transmitter SENDING the command is in progress; with it QUIET the channel enters OFF at the
same event. That the filling chain is released before the active entry's, which decides their order
on the free list, is the model's reading (log 13). -/
def Obligations.AbortStopsTheChannel : Prop :=
  ∀ s : State, s.resetLow = false → s.busy = none →
    (4 ≤ s.arg[0].toNat → exec .abort s = .next (s.completed .badArg)) ∧
    ∀ (c : Chan) (u v w : State), c.val = s.arg[0].toNat →
      ((s.chan c).mode = .off → exec .abort s = .next (s.completed .ok)) ∧
      ((s.chan c).mode = .run ∨ (s.chan c).mode = .stopping →
        u = (s.updChan c fun ch =>
          { ch with
            mode := .aborting, response := none, flow := none, holdOutstanding := false
            refresh := none, holdTimer := none }) →
        v = (u.dropFilling c).updChan c (fun ch => { ch with engine := Engine.idle .hunt }) →
        w = (if (s.chan c).sequencer.state = .backoff ∨ (s.chan c).sequencer.state = .awaitAck ∨
              (s.chan c).sequencer.state = .busyWait ∨ (s.chan c).sequencer.state = .completeWait ∨
              ((s.chan c).sequencer.state = .defer ∧ (s.chan c).headActive = true) then
            v.completeAborted c
          else v) →
        ((s.chan c).lineTx ≠ .quiet →
          exec .abort s = .next { w with busy := some c, cmdStatus := .inProg }.settle) ∧
        ((s.chan c).lineTx = .quiet →
          exec .abort s =
            exec (.abortComplete c) { w with busy := some c, cmdStatus := .inProg }))

/-- ABORT_COMPLETE on a channel in ABORTING: the line transmitter is QUIET, an entry in ATTEMPT
completes ABORTED, the channel enters OFF raising CHAN_OFF, and ABORT completes with OK. On any
other channel it does not happen (log 2). An active entry that completes ABORTED: its record is
appended if there is room and lost with TCQ_LOST otherwise, its chain is released, it leaves the
queue, and the sequencer is IDLE with attempt count 0. -/
def Obligations.AbortCompletesAndRecordsTheEntry : Prop :=
  (∀ (s : State) (c : Chan) (u v : State),
     ((s.chan c).mode = .aborting →
       u = (s.updChan c fun ch => { ch with lineTx := .quiet }) →
       v = (if (s.chan c).sequencer.state = .attempt then u.completeAborted c else u) →
       exec (.abortComplete c) s = .next
         (State.completed
           { v.updChan c Channel.atOff with
             busy := none, event := v.event ||| 0x0040 } .ok).settle) ∧
     ((s.chan c).mode ≠ .aborting → exec (.abortComplete c) s = .next s)) ∧
  (∀ (s : State) (c : Chan) (e : TxEntry) (es : List TxEntry) (u : State),
     (s.chan c).txq = e :: es →
     (s.tcq.length < 16 →
       u = { s with tcq := s.tcq ++ [⟨c, e.tag, e.seq, .aborted, (s.chan c).sequencer.attempts⟩] }) →
     (16 ≤ s.tcq.length → u = { s with event := s.event ||| 0x0100 }) →
     s.completeAborted c =
       (u.release e.head).updChan c fun ch =>
         { ch with txq := es, sequencer := ⟨.idle, 0, ch.sequencer.limit, none, none⟩ })

/-- CLEARSEQ removes the entries of the channels selected in ARG0 bits 3 to 0, keeps the others in
their order, and loads RES0 with the number removed; nothing else changes. While ABORT is in progress
it is refused. -/
def Obligations.ClearseqRemovesTheSelectedChannels : Prop :=
  ∀ s : State,
    (s.resetLow = false → s.busy = none →
      ∀ kept, kept = s.seqTable.filter (fun e => !s.arg[0].getLsbD e.chan.val) →
        exec .clearseq s = .next
          (State.completed
            { s with
              seqTable := kept
              res := s.res.set 0 (BitVec.ofNat 8 (s.seqTable.length - kept.length)) } .ok)) ∧
    (s.busy ≠ none → ∃ t, exec .clearseq s = .next t ∧ t.seqTable = s.seqTable)

/-- STWRITE: BADARG for an index above 15 or an address of 00h or FFh; otherwise the three fields of
the entry are replaced. An entry that is not valid makes no DEST listed. -/
def Obligations.StwriteReplacesAnEntry : Prop :=
  ∀ s : State, s.resetLow = false → s.busy = none →
    (16 ≤ s.arg[0].toNat ∨ s.arg[1] = 0x00 ∨ s.arg[1] = 0xFF →
      exec .stwrite s = .next (s.completed .badArg)) ∧
    (∀ i : Fin 16, i.val = s.arg[0].toNat → s.arg[1] ≠ 0x00 → s.arg[1] ≠ 0xFF →
      exec .stwrite s = .next
        (State.completed
          { s with
            station := s.station.set i
              ⟨s.arg[2].getLsbD 7, s.arg[1], s.arg[2].extractLsb' 0 4⟩ } .ok)) ∧
    ∀ (c : Chan) (d : Byte),
      (s.listed c d = true ↔
        ∃ i : Fin 16, s.station[i].valid = true ∧ s.station[i].addr = d ∧
          s.station[i].mask.getLsbD c.val = true)

/-- STREAD: BADARG for an index above 15, the result registers keeping their values; otherwise RES0
takes the index, RES1 the address, RES2 the mask in bits 3 to 0 and the valid flag in bit 7, and
RES3 to RES7 keep their values. After pin reset every entry reads address 00h, an empty mask and
valid no; no command but STWRITE and PIN_RESET changes the table, so that an entry not written since
pin reset still reads so. -/
def Obligations.StreadShowsAnEntry : Prop :=
  (∀ s : State, s.resetLow = false → s.busy = none →
    (16 ≤ s.arg[0].toNat → exec .stread s = .next (s.completed .badArg)) ∧
    ∀ (i : Fin 16) (m : Byte), i.val = s.arg[0].toNat →
      m = (if s.station[i].valid then 0x80 else 0x00) ||| s.station[i].mask.setWidth 8 →
      exec .stread s = .next
        (State.completed
          { s with
            res := #v[s.arg[0], s.station[i].addr, m, s.res[3], s.res[4], s.res[5], s.res[6],
              s.res[7]] } .ok)) ∧
  (∀ i : Fin 16, State.reset.station[i] = ⟨false, 0x00, 0⟩) ∧
  ∀ (i : Instr) (s t : State), i.wellFormed = true → i ≠ .stwrite → i ≠ .pinReset →
    exec i s = .next t → t.station = s.station

/-- COUNTER: BADARG for a channel above 3 or an index above 15; otherwise RES0 and RES1 take the
counter's low and high byte, and it is set to 0 if bit 0 of ARG2 is 1. A count adds one below FFFFh,
leaves FFFFh, and raises COUNTER_SAT at the step from FFFEh; it changes nothing else. The indices are
those of the table of R175. -/
def Obligations.CountersCountReadAndClear : Prop :=
  (∀ x ∈ [(Counter.rxFrames, (0 : Fin 16)), (.rxCheck, 1), (.rxFraming, 2), (.rxGap, 3), (.rxTrunc, 4),
      (.rxMalformed, 5), (.rxNoRoom, 6), (.rxQFull, 7), (.rxDuplicate, 8), (.txFrames, 9),
      (.txCollisions, 10), (.txAckTimeouts, 11), (.txNaks, 12), (.strayResponses, 13),
      (.respDropped, 14), (.flowDropped, 15)],
    x.1.index = x.2) ∧
  (∀ s : State, s.resetLow = false → s.busy = none →
     (4 ≤ s.arg[0].toNat ∨ 16 ≤ s.arg[1].toNat →
       exec .counter s = .next (s.completed .badArg)) ∧
     ∀ (c : Chan) (k : Fin 16) (v : Half) (r : Vector Byte 8),
       c.val = s.arg[0].toNat → k.val = s.arg[1].toNat → v = (s.chan c).counters[k] →
       r = #v[v.extractLsb' 0 8, v.extractLsb' 8 8, s.res[2], s.res[3], s.res[4], s.res[5], s.res[6],
         s.res[7]] →
       (s.arg[2].getLsbD 0 = false →
         exec .counter s = .next (State.completed { s with res := r } .ok)) ∧
       (s.arg[2].getLsbD 0 = true →
         exec .counter s = .next
           (State.completed
             { s.updChan c fun ch => { ch with counters := ch.counters.set k 0x0000 } with
               res := r } .ok))) ∧
  (∀ (s : State) (c : Chan) (k : Counter) (v : Half), v = (s.chan c).counters[k.index] →
     (v.toNat < 0xFFFE →
       s.count c k =
         s.updChan c fun ch => { ch with counters := ch.counters.set k.index (v + 1) }) ∧
     (v = 0xFFFE →
       s.count c k =
         { s.updChan c fun ch => { ch with counters := ch.counters.set k.index 0xFFFF } with
           event := s.event ||| 0x1000 }) ∧
     (v = 0xFFFF → s.count c k = s))

/-! ### The receiver and the receive engines -/

/-- A detected start bit, by a receiver that looks for one or follows a candidate, drops a pending
response with a count and holds line idle time at 0; the low period is the one measured since the
falling edge, or one that began half a bit time back where the command names it (log 7). A high line ends the wait of a receiver after
a framing error or a low line at ENABLE: it looks for a falling edge again, the low period ends and
line idle time counts from 0. A low period that reaches 2 x C bit times raises LINE_FAULT once; a
command that says so is taken at its word, and the period then stands at that length at least (log
3). Where a receiver cannot come to the event it does not happen (log 2). -/
def Obligations.StartBitAndLowPeriodOfTheReceiver : Prop :=
  (∀ (s : State) (c : Chan) (l : LowPeriod) (u : State),
     ((s.chan c).mode ≠ .off → (s.chan c).rx = .looking ∨ (s.chan c).rx = .candidate →
       ((s.chan c).rx = .looking ∨ (s.chan c).lowPeriod = none → l = ⟨8, false⟩) →
       ((s.chan c).rx = .candidate → ∀ m, (s.chan c).lowPeriod = some m → l = m) →
       u = (s.updChan c fun ch =>
         { ch with
           rx := .inCharacter, rxTicks := 8, rxBits := 0, rxd := false, lowPeriod := some l
           idle := 0, idleRunning := false, idlePhase := 0 }) →
       ((s.chan c).response = none → exec (.startBitDetected c) s = .next u.settle) ∧
       (∀ r, (s.chan c).response = some r →
         exec (.startBitDetected c) s = .next
           ((u.count c .respDropped).updChan c fun ch => { ch with response := none }).settle)) ∧
     ((s.chan c).mode = .off ∨ (s.chan c).rx = .inCharacter ∨ (s.chan c).rx = .waitHigh →
       exec (.startBitDetected c) s = .next s)) ∧
  (∀ (s : State) (c : Chan),
     ((s.chan c).mode ≠ .off → (s.chan c).rx = .waitHigh →
       exec (.lineSampledHigh c) s = .next
         (s.updChan c fun ch =>
           { ch with
             rx := .looking, rxd := true, lowPeriod := none
             idle := 0, idleRunning := true, idlePhase := 0 })) ∧
     ((s.chan c).mode = .off ∨ (s.chan c).rx ≠ .waitHigh →
       exec (.lineSampledHigh c) s = .next s) ∧
     ((s.chan c).mode ≠ .off → (s.chan c).rx = .inCharacter ∨ (s.chan c).rx = .waitHigh →
       ∀ l, (s.chan c).lowPeriod = some l → l.raised = false →
       exec (.lineFault c) s = .next
         { s.updChan c fun ch =>
             { ch with
               lowPeriod :=
                 some ⟨max l.ticks (16 * (2 * if ch.latchedTwoStop then 12 else 11)), true⟩ } with
           event := s.event ||| 0x0800 }) ∧
     ((s.chan c).mode = .off ∨ (s.chan c).rx = .looking ∨ (s.chan c).rx = .candidate ∨
         (s.chan c).lowPeriod = none ∨ (∃ l, (s.chan c).lowPeriod = some l ∧ l.raised = true) →
       exec (.lineFault c) s = .next s))

/-- Where a character on the line goes: nowhere in OFF or while the receiver waits for a high line;
after its start bit where the receiver was looking for one; to the receive engine with the line
transmitter QUIET; and in ABORTING the engine ignores it. READBACK_CHARACTER names the same event on
a SENDING channel (logs 7 and 8). A waiting receive request of a frame is served before the frame's
next character (R28; log 10): the character finds the part as it is after the allocator has served
the next request in rotation. -/
def Obligations.CharacterFollowsItsStartBitAndRequest : Prop :=
  (∀ (s : State) (c : Chan) (x : Character),
     exec (.readbackCharacter c x) s = exec (.characterReceived c x) s ∧
     ((s.chan c).mode = .off ∨ (s.chan c).rx = .waitHigh →
       exec (.characterReceived c x) s = .next s) ∧
     ((s.chan c).mode ≠ .off → (s.chan c).rx = .looking ∨ (s.chan c).rx = .candidate →
       ∃ t, exec (.startBitDetected c) s = .next t ∧
         exec (.characterReceived c x) s = exec (.characterReceived c x) t) ∧
     ((s.chan c).mode = .aborting → (s.chan c).rx = .inCharacter → (s.chan c).lineTx = .quiet →
       x.framing = false →
       exec (.characterReceived c x) s = .next (s.updChan c Channel.heard).settle)) ∧
  (∀ (s : State) (c : Chan) (n : Nat) (x : Character), s.Hears c →
     (s.chan c).engine.Law → (s.chan c).engine.request = some n →
     exec (.characterReceived c x) s = exec (.characterReceived c x) s.serveOne)

/-- The class of a DEST is the first of the four conditions that holds. -/
def Obligations.DestinationIsClassedInOrder : Prop :=
  ∀ (s : State) (c : Chan) (d : Byte) (own broadcast listed any : Prop),
    own = (0x01 ≤ (s.chan c).ownAddr.toNat ∧ (s.chan c).ownAddr.toNat ≤ 0xEF ∧
      d = (s.chan c).ownAddr) →
    broadcast = (d = 0xFF ∧ (s.chan c).flags.getLsbD 1 = true) →
    listed = (∃ i : Fin 16, s.station[i].valid = true ∧ s.station[i].addr = d ∧
      s.station[i].mask.getLsbD c.val = true) →
    any = ((s.chan c).flags.getLsbD 2 = true) →
    (own → s.classify c d = some .own) ∧
    (¬own → broadcast → s.classify c d = some .broadcast) ∧
    (¬own → ¬broadcast → listed → s.classify c d = some .listed) ∧
    (¬own → ¬broadcast → ¬listed → any → s.classify c d = some .any) ∧
    (¬own → ¬broadcast → ¬listed → ¬any → s.classify c d = none)

/-- A reject releases the filling chain, if there is one, counts its reason once, and leaves the
engine without a frame. -/
def Obligations.RejectReleasesCountsAndEnds : Prop :=
  ∀ (s : State) (c : Chan) (k : Counter) (p : Parser),
    (∀ h, (s.chan c).engine.room = .storing h →
      s.rejectFrame c k p =
        ((s.release h).count c k).updChan c fun ch => { ch with engine := Engine.idle p }) ∧
    ((∀ h, (s.chan c).engine.room ≠ .storing h) →
      s.rejectFrame c k p =
        (s.count c k).updChan c fun ch => { ch with engine := Engine.idle p })

/-- What a character does by the parser's state, its marker and its framing-error mark: in HUNT and
SKIP, and where it ends a frame in flight. The low period that a framing error leaves is the one measured
where the receiver has sampled the character; where a command names it, the model's reading is that it
is the character's trailing low cells (log 19). -/
def Obligations.CharacterStartsPassesOrEndsAFrame : Prop :=
  ∀ (s : State) (c : Chan) (b : Byte) (m : Bool) (u v : State), s.Hears c →
    (s.chan c).engine.request = none → u = s.updChan c Channel.heard →
    v = (s.updChan c fun ch =>
      { ch with
        rx := .waitHigh, rxTicks := 0, rxBits := 0, rxd := false
        lowPeriod := ch.lowLeft b m
        idle := 0, idleRunning := false, idlePhase := 0 }) →
    ((s.chan c).engine.parser = .hunt ∨ (s.chan c).engine.parser = .skip →
      exec (.characterReceived c ⟨b, false, false⟩) s = .next u.settle ∧
      (s.classify c b = none →
        exec (.characterReceived c ⟨b, true, false⟩) s = .next
          (u.updChan c fun ch => { ch with engine := Engine.idle .skip }).settle) ∧
      (∀ k, s.classify c b = some k → b ≠ 0x00 →
        exec (.characterReceived c ⟨b, true, false⟩) s = .next
          (u.updChan c fun ch =>
            { ch with
              engine :=
                ⟨.destSeen, k, b, 0x00, 0x00, 0x00, 0, 0x00, .none, none, crc [b], 0x00⟩ }).settle) ∧
      (∀ k, s.classify c b = some k → b = 0x00 →
        exec (.characterReceived c ⟨b, true, false⟩) s = .next
          (u.rejectFrame c .rxMalformed .skip).settle)) ∧
    ((s.chan c).engine.parser = .hunt →
      exec (.characterReceived c ⟨b, m, true⟩) s = .next v.settle) ∧
    ((s.chan c).engine.parser = .skip →
      exec (.characterReceived c ⟨b, m, true⟩) s = .next
        (v.updChan c fun ch => { ch with engine := Engine.idle .hunt }).settle) ∧
    ((s.chan c).engine.parser.inFlight = true →
      exec (.characterReceived c ⟨b, m, true⟩) s = .next
        (v.rejectFrame c .rxFraming .hunt).settle ∧
      exec (.characterReceived c ⟨b, true, false⟩) s = .next
        ((u.rejectFrame c .rxTrunc .hunt).takeDest c b).settle)

/-- The header characters of a frame in flight: SRC must be 01h to EFh, CTRL without must-be-zero bits
and with AR on DATA alone, LEN at most 240, 0 for ACK and NAK, 1 for HOLD; a good one is latched and fed
through the check register, a bad one ends the frame as malformed. A DATA frame's LEN makes a receive
request for pages(LEN) pages. -/
def Obligations.HeaderCharactersAreJudged : Prop :=
  ∀ (s : State) (c : Chan) (b : Byte) (e : Engine) (u bad : State), s.Hears c →
    e = (s.chan c).engine → e.request = none → u = s.updChan c Channel.heard →
    bad = (u.rejectFrame c .rxMalformed .skip).settle →
    (e.parser = .destSeen →
      (0x01 ≤ b.toNat ∧ b.toNat ≤ 0xEF →
        exec (.characterReceived c ⟨b, false, false⟩) s = .next
          (u.updChan c fun ch =>
            { ch with
              engine := { e with parser := .src, src := b, check := crcByte e.check b } }).settle) ∧
      (b = 0x00 ∨ 0xF0 ≤ b.toNat →
        exec (.characterReceived c ⟨b, false, false⟩) s = .next bad)) ∧
    (e.parser = .src →
      (b.getLsbD 7 = false ∧ b.getLsbD 6 = false ∧ (b.getLsbD 3 = false ∨ ctrlKind b = .data) →
        exec (.characterReceived c ⟨b, false, false⟩) s = .next
          (u.updChan c fun ch =>
            { ch with
              engine := { e with parser := .ctrl, ctrl := b, check := crcByte e.check b } }).settle) ∧
      (b.getLsbD 7 = true ∨ b.getLsbD 6 = true ∨ (b.getLsbD 3 = true ∧ ctrlKind b ≠ .data) →
        exec (.characterReceived c ⟨b, false, false⟩) s = .next bad)) ∧
    (e.parser = .ctrl →
      (ctrlKind e.ctrl = .data → b.toNat ≤ 240 →
        exec (.characterReceived c ⟨b, false, false⟩) s = .next
          (u.updChan c fun ch =>
            { ch with
              engine :=
                { e with
                  parser := .len, len := b, check := crcByte e.check b
                  request := some (if b.toNat ≤ 56 then 1 else 1 + (b.toNat - 56 + 63) / 64) } }).settle) ∧
      ((ctrlKind e.ctrl = .ack ∨ ctrlKind e.ctrl = .nak) ∧ b = 0x00 ∨
          ctrlKind e.ctrl = .hold ∧ b = 0x01 →
        exec (.characterReceived c ⟨b, false, false⟩) s = .next
          (u.updChan c fun ch =>
            { ch with
              engine :=
                { e with parser := .len, len := b, check := crcByte e.check b, request := none } }).settle) ∧
      (240 < b.toNat ∨ (ctrlKind e.ctrl = .ack ∨ ctrlKind e.ctrl = .nak) ∧ b ≠ 0x00 ∨
          ctrlKind e.ctrl = .hold ∧ b ≠ 0x01 →
        exec (.characterReceived c ⟨b, false, false⟩) s = .next bad))

/-- In LEN and PAYLOAD a character below the payload length is the next payload character, fed through
the check register and stored at chain offset 8 + i, discarded in NO_ROOM, or latched as d; the one
after the last is the high CHECK character. -/
def Obligations.PayloadIsStoredInLineOrder : Prop :=
  ∀ (s : State) (c : Chan) (b : Byte) (e : Engine) (u : State), s.Hears c →
    e = (s.chan c).engine → e.request = none → u = s.updChan c Channel.heard →
    e.parser = .len ∨ e.parser = .payload →
    (e.count < e.len.toNat →
      ∀ (v : State) (e' : Engine),
        e' = { e with
          parser := .payload, count := e.count + 1, check := crcByte e.check b
          duration := if ctrlKind e.ctrl = .hold then b else e.duration } →
        ((∀ h, e.room = .storing h → v = u.storeChain h (8 + e.count) b) ∧
          ((∀ h, e.room ≠ .storing h) → v = u)) →
        exec (.characterReceived c ⟨b, false, false⟩) s = .next
          (v.updChan c fun ch => { ch with engine := e' }).settle) ∧
    (e.len.toNat ≤ e.count →
      exec (.characterReceived c ⟨b, false, false⟩) s = .next
        (u.updChan c fun ch =>
          { ch with engine := { e with parser := .checkHi, checkHi := b } }).settle)

/-- The frame-end decision for a DATA frame whose check passes, by its rows: a duplicate, NO_ROOM, a
full queue, and acceptance, each with and without a response. The parser is in CHECK_LO while it is
taken, and then in HUNT. -/
def Obligations.DataFrameEndPlacesTheFrame : Prop :=
  ∀ (s : State) (c : Chan) (lo : Byte) (ch : Channel) (e : Engine) (u : State), s.Hears c →
    ch = s.chan c → e = ch.engine → e.request = none → e.parser = .checkHi →
    e.check = e.checkHi ++ lo → ctrlKind e.ctrl = .data →
    u = (s.updChan c fun ch =>
      { ch.heard with engine := { ch.engine with parser := .checkLo } }) →
    (ch.Answers → s.seqHit c e.src (e.ctrl.extractLsb' 0 3) = true →
      exec (.characterReceived c ⟨lo, false, false⟩) s = .next
        ((((State.dropFilling
            { u with seqTable := seqRecord s.seqTable c e.src (e.ctrl.extractLsb' 0 3) } c).count
            c .rxDuplicate).placeResponse c false e).updChan c
          fun ch => { ch with engine := Engine.idle .hunt }).settle) ∧
    (¬ch.Answers ∨ s.seqHit c e.src (e.ctrl.extractLsb' 0 3) = false →
      ((∀ h, e.room ≠ .storing h) → ∀ v : State,
        (ch.Answers → v = (u.count c .rxNoRoom).placeResponse c true e) →
        (¬ch.Answers → v = u.count c .rxNoRoom) →
        exec (.characterReceived c ⟨lo, false, false⟩) s = .next
          (v.updChan c fun ch => { ch with engine := Engine.idle .hunt }).settle) ∧
      (∀ h, e.room = .storing h → 32 ≤ s.rfq.length → ∀ v w : State,
        w = (let x := (u.release h).count c .rxQFull; { x with event := x.event ||| 0x0200 }) →
        (ch.Answers → v = w.placeResponse c true e) → (¬ch.Answers → v = w) →
        exec (.characterReceived c ⟨lo, false, false⟩) s = .next
          (v.updChan c fun ch => { ch with engine := Engine.idle .hunt }).settle) ∧
      (∀ h, e.room = .storing h → s.rfq.length < 32 → ∀ v w : State,
        w = (State.count
          { u with
            rfq := s.rfq ++ [⟨h, c, e.cls, e.dest, e.src, e.ctrl, e.len, s.arrival⟩]
            arrival := s.arrival + 1
            pageTable := s.pageTable.own .queuedRx (s.chainPages h)
            mem := ((s.setOwner h .queuedRx).storeBytes h 0
              [h, BitVec.ofNat 8 (e.cls.code * 4 + c.val), e.dest, e.src, e.ctrl, e.len,
                s.arrival.extractLsb' 0 8, s.arrival.extractLsb' 8 8]).mem } c .rxFrames) →
        (ch.Answers →
          v = State.placeResponse
            { w with seqTable := seqRecord s.seqTable c e.src (e.ctrl.extractLsb' 0 3) } c false e) →
        (¬ch.Answers → v = w) →
        exec (.characterReceived c ⟨lo, false, false⟩) s = .next
          (v.updChan c fun ch => { ch with engine := Engine.idle .hunt }).settle))

/-- The frame-end decision otherwise: a check that fails rejects the frame; an ACK or NAK of class OWN
is delivered to the sequencer and of another class ignored; a HOLD of a class other than ANY sets or
stops the hold timer while hold-honour is set, raising HOLD_IN when it sets it, and is ignored
otherwise. -/
def Obligations.OtherFrameEndsDeliverOrReject : Prop :=
  ∀ (s : State) (c : Chan) (lo : Byte) (ch : Channel) (e : Engine) (u : State), s.Hears c →
    ch = s.chan c → e = ch.engine → e.request = none → e.parser = .checkHi →
    u = (s.updChan c fun ch =>
      { ch.heard with engine := { ch.engine with parser := .checkLo } }) →
    (e.check ≠ e.checkHi ++ lo →
      exec (.characterReceived c ⟨lo, false, false⟩) s = .next
        (u.rejectFrame c .rxCheck .hunt).settle) ∧
    (e.check = e.checkHi ++ lo →
      (ctrlKind e.ctrl = .ack → e.cls = .own →
        exec (.characterReceived c ⟨lo, false, false⟩) s = .next
          ((u.deliver c false e.src (e.ctrl.extractLsb' 0 3)).updChan c
            fun ch => { ch with engine := Engine.idle .hunt }).settle) ∧
      (ctrlKind e.ctrl = .nak → e.cls = .own →
        exec (.characterReceived c ⟨lo, false, false⟩) s = .next
          ((u.deliver c true e.src (e.ctrl.extractLsb' 0 3)).updChan c
            fun ch => { ch with engine := Engine.idle .hunt }).settle) ∧
      ((ctrlKind e.ctrl = .ack ∨ ctrlKind e.ctrl = .nak) ∧ e.cls ≠ .own ∨
          ctrlKind e.ctrl = .hold ∧ (e.cls = .any ∨ ch.flags.getLsbD 5 = false) →
        exec (.characterReceived c ⟨lo, false, false⟩) s = .next
          (u.updChan c fun ch => { ch with engine := Engine.idle .hunt }).settle) ∧
      (ctrlKind e.ctrl = .hold → e.cls ≠ .any → ch.flags.getLsbD 5 = true → e.duration ≠ 0x00 →
        exec (.characterReceived c ⟨lo, false, false⟩) s = .next
          { u.updChan c fun ch =>
              { ch with
                engine := Engine.idle .hunt
                holdTimer := some (16 * (256 * e.duration.toNat)) } with
            event := s.event ||| 0x0010 }.settle) ∧
      (ctrlKind e.ctrl = .hold → e.cls ≠ .any → ch.flags.getLsbD 5 = true → e.duration = 0x00 →
        exec (.characterReceived c ⟨lo, false, false⟩) s = .next
          (u.updChan c fun ch =>
            { ch with engine := Engine.idle .hunt, holdTimer := none }).settle))

/-- The response an engine places fills the slot with the kind, the frame's SRC and SEQ and one
character time of gap; a pending one is replaced and RESP_DROPPED counts once. Recording (channel,
source, SEQ) places that entry at the most-recent end, drops any other entry of the same channel and
source, and, when 32 others remain, the least recent one; the entries that stay keep their order. A
lookup hits exactly on an entry of the channel and source with an equal SEQ. -/
def Obligations.ResponseSlotAndSequenceTableKeepTheNewest : Prop :=
  (∀ (s : State) (c : Chan) (nak : Bool) (e : Engine) (r : Response),
     r = ⟨nak, e.src, e.ctrl.extractLsb' 0 3,
       16 * if (s.chan c).latchedTwoStop then 12 else 11⟩ →
     ((s.chan c).response = none →
       s.placeResponse c nak e = s.updChan c fun ch => { ch with response := some r }) ∧
     (∀ old, (s.chan c).response = some old →
       s.placeResponse c nak e =
         (s.count c .respDropped).updChan c fun ch => { ch with response := some r })) ∧
  (∀ (t : List SeqEntry) (c : Chan) (src : Byte) (q : BitVec 3) (others : List SeqEntry),
     others = t.filter (fun e => ¬(e.chan = c ∧ e.src = src)) →
     (others.length < 32 → seqRecord t c src q = others ++ [⟨c, src, q⟩]) ∧
     (others.length = 32 → seqRecord t c src q = others.tail ++ [⟨c, src, q⟩]) ∧
     ∀ s : State, s.seqTable = t → s.SeqKeysDistinct →
       (s.seqHit c src q = true ↔ ⟨c, src, q⟩ ∈ t))

/-- Gap expiry rejects the frame in flight as GAP; that a receive request of the frame which still
waits is served before that is the model's reading (log 10). The gap exit takes the parser from SKIP
to HUNT and counts nothing. Both need line idle time to be counting on a channel in service; it
stands at the gap limit plus one (log 3). Otherwise they do not happen (log 2). -/
def Obligations.GapEndsFrameOrSkip : Prop :=
  ∀ (s : State) (c : Chan) (u : State),
    u = (s.updChan c fun ch =>
      { ch with idle := max ch.idle (max 12 ch.gapLim.toNat + 1) }) →
    ((s.chan c).mode = .run ∨ (s.chan c).mode = .stopping → (s.chan c).idleRunning = true →
      ((s.chan c).engine.parser.inFlight = true → (s.chan c).engine.request = none →
        exec (.gapExpiry c) s = .next (u.rejectFrame c .rxGap .hunt).settle) ∧
      ((s.chan c).engine.parser.inFlight = true →
        exec (.gapExpiry c) s = .next ((u.serveFor c 4).rejectFrame c .rxGap .hunt).settle) ∧
      ((s.chan c).engine.parser = .skip →
        exec (.skipGapExit c) s = .next
          (u.updChan c fun ch => { ch with engine := Engine.idle .hunt }).settle)) ∧
    ((s.chan c).mode = .off ∨ (s.chan c).mode = .aborting ∨ (s.chan c).idleRunning = false →
      exec (.gapExpiry c) s = .next s ∧ exec (.skipGapExit c) s = .next s) ∧
    ((s.chan c).engine.parser.inFlight = false → exec (.gapExpiry c) s = .next s) ∧
    ((s.chan c).engine.parser ≠ .skip → exec (.skipGapExit c) s = .next s)


/-! ### The transmit side -/

/-- How a sequencer treats a delivery: a matching ACK in AWAIT_ACK, DEFER, BACKOFF and BUSY_WAIT
completes ACKED; a matching NAK in AWAIT_ACK counts TX_NAKS and leads to BUSY_WAIT while attempts
remain and to FAIL_BUSY otherwise. -/
def Obligations.MatchingDeliveriesActOnTheSequencer : Prop :=
  ∀ (s : State) (c : Chan) (ch : Channel) (e : TxEntry) (es : List TxEntry), ch = s.chan c →
    ch.txq = e :: es → e.active = true → e.ar = true →
    (ch.sequencer.state = .awaitAck ∨ ch.sequencer.state = .defer ∨
        ch.sequencer.state = .backoff ∨ ch.sequencer.state = .busyWait →
      s.deliver c false e.dest e.seq = s.claim c .acked) ∧
    (ch.sequencer.state = .awaitAck → ch.sequencer.attempts < 1 + ch.sequencer.limit →
      s.deliver c true e.dest e.seq =
        (s.count c .txNaks).updChan c fun ch =>
          { ch with
            sequencer :=
              { ch.sequencer with
                state := .busyWait, timer := some (16 * (256 * max 1 ch.busyDly.toNat)) } }) ∧
    (ch.sequencer.state = .awaitAck → 1 + ch.sequencer.limit ≤ ch.sequencer.attempts →
      s.deliver c true e.dest e.seq = (s.count c .txNaks).claim c .failBusy)

/-- A delivery that is not a match in the sequencer's state is stray: STRAY_RESPONSES counts and nothing
else changes. -/
def Obligations.StrayDeliveryOnlyCounts : Prop :=
  ∀ (s : State) (c : Chan) (nak : Bool) (src : Byte) (q : BitVec 3) (ch : Channel), ch = s.chan c →
    ¬((∃ e es, ch.txq = e :: es ∧ e.active = true ∧ e.ar = true ∧ e.dest = src ∧ e.seq = q) ∧
      (ch.sequencer.state = .awaitAck ∨
        (nak = false ∧ (ch.sequencer.state = .defer ∨ ch.sequencer.state = .backoff ∨
          ch.sequencer.state = .busyWait)))) →
    s.deliver c nak src q = s.count c .strayResponses

/-- The readback comparator on a channel not ABORTING: a character that matches the one being sent
goes on, the last one's match reports the clean end to the source, and one that does not match is a
collision. After the verdict, and in ABORTING, a character is not judged. A missing readback is a
collision. A character that the receiver has sampled is compared with the one being sent as it stands.
The model's choices are for a test that a command names without samples: its moment is past the middle
of the stop bit (log 3) of the character being sent, and of the next one if that one is read back
(log 9). A missing readback happens only for a frame without a verdict, with a readback still to come,
on a channel that is not ABORTING (log 2). -/
def Obligations.ReadbackFindsCleanEndsAndCollisions : Prop :=
  (∀ (s : State) (c : Chan) (f g : Sending) (x : Character) (u : State),
     (s.chan c).mode ≠ .off → (s.chan c).rx = .inCharacter → (s.chan c).lineTx = .sending f →
     u = s.updChan c (Channel.received x) →
     ((s.chan c).mode ≠ .aborting → f.verdict = .pending →
       (168 ≤ (s.chan c).rxTicks → g = { f with readBack := true }) →
       ((s.chan c).rxTicks < 168 → f.readBack = false ∨ f.chars.length ≤ f.index + 1 →
         g = { f with ticks := max f.ticks 169, readBack := true }) →
       ((s.chan c).rxTicks < 168 → f.readBack = true → f.index + 1 < f.chars.length →
         g = { f with index := f.index + 1, ticks := 169, readBack := true }) →
       (x.framing = false → g.chars[g.index]? = some x.data → x.marker = (g.index == 0) →
         (g.index + 1 ≠ g.chars.length →
           exec (.readbackCharacter c x) s = .next
             (u.updChan c fun ch => { ch with lineTx := .sending g }).settle) ∧
         (g.index + 1 = g.chars.length →
           exec (.readbackCharacter c x) s = .next
             ((u.updChan c fun ch =>
               { ch with lineTx := .sending { g with verdict := .clean } }).reportClean c
                 f.kind).settle)) ∧
       (x.framing = true ∨ g.chars[g.index]? ≠ some x.data ∨ x.marker ≠ (g.index == 0) →
         exec (.readbackCharacter c x) s = .next
           (u.updChan c fun ch =>
             { ch with lineTx := .sending { g with verdict := .collision } }).settle)) ∧
     ((s.chan c).mode = .aborting ∨ f.verdict ≠ .pending →
       exec (.readbackCharacter c x) s = .next u.settle)) ∧
  (∀ (s : State) (c : Chan),
     (∀ f, (s.chan c).lineTx = .sending f → (s.chan c).mode ≠ .aborting → f.verdict = .pending →
       (f.readBack = false →
         exec (.missingReadback c) s = .next
           (s.updChan c fun ch =>
             { ch with
               lineTx := .sending { f with ticks := max f.ticks 169, verdict := .collision } })) ∧
       (f.readBack = true → f.index + 1 < f.chars.length →
         exec (.missingReadback c) s = .next
           (s.updChan c fun ch =>
             { ch with
               lineTx :=
                 .sending
                   { f with
                     index := f.index + 1, ticks := 169, readBack := false
                     verdict := .collision } })) ∧
       (f.readBack = true → f.chars.length ≤ f.index + 1 →
         exec (.missingReadback c) s = .next s)) ∧
     ((s.chan c).lineTx = .quiet ∨ (s.chan c).mode = .aborting ∨
         (∃ f, (s.chan c).lineTx = .sending f ∧ f.verdict ≠ .pending) →
       exec (.missingReadback c) s = .next s))

/-- The clean end of an attempt completes the entry SENT without AR, and with AR starts the ack
timer of ACKTO x 16 bit times in AWAIT_ACK; a response reports nothing. The clean end of a flow
frame, by its kind and the monitor's state; HOLD_OUT is raised in each. A frame placed anew holds no
limit, d or own address yet, which are 0 (log 12). -/
def Obligations.CleanEndsAreReportedToTheSource : Prop :=
  (∀ (s : State) (c : Chan) (e : TxEntry) (es : List TxEntry), (s.chan c).txq = e :: es →
     (e.ar = false → s.reportClean c .data = s.claim c .sent) ∧
     (e.ar = true →
       s.reportClean c .data =
         s.updChan c fun ch =>
           { ch with
             sequencer :=
               { ch.sequencer with
                 state := .awaitAck, timer := some (16 * (16 * max 1 ch.ackTo.toNat)) } })) ∧
  (∀ (s : State) (c : Chan), s.reportClean c .response = s) ∧
  (∀ (s : State) (c : Chan) (f : FlowFrame), (s.chan c).flow = some f →
     (f.resume = false → s.pool = .low →
       s.reportClean c .flow =
         { s.updChan c fun ch =>
             { ch with
               flow := none, holdOutstanding := true
               refresh := some (16 * (256 * f.d.toNat)) } with
           event := s.event ||| 0x0020 }) ∧
     (f.resume = false → s.pool = .normal →
       s.reportClean c .flow =
         { s.updChan c fun ch =>
             { ch with flow := some (newFlow true), holdOutstanding := true } with
           event := s.event ||| 0x0020 }) ∧
     (f.resume = true → s.pool = .normal →
       s.reportClean c .flow =
         { s.updChan c fun ch => { ch with flow := none, holdOutstanding := false } with
           event := s.event ||| 0x0020 }) ∧
     (f.resume = true → s.pool = .low →
       s.reportClean c .flow =
         { s.updChan c fun ch =>
             { ch with
               flow :=
                 if ch.flags.getLsbD 4 = true ∧ 0x01 ≤ ch.ownAddr.toNat ∧ ch.ownAddr.toNat ≤ 0xEF then
                   some (newFlow false)
                 else none
               holdOutstanding := false } with
           event := s.event ||| 0x0020 }))

/-- The end of sending: after a clean end the line transmitter becomes QUIET; after a collision it
becomes QUIET and reports, and a response is dropped with a count. On an ABORTING channel, without
the verdict, or QUIET, neither happens (logs 2 and 26). A data attempt's collision counts
TX_COLLISIONS; while attempts remain the sequencer goes to BACKOFF for ((k + a) mod 8 + 1) x B bit
times, k the entry's SRC modulo 8; otherwise the entry completes FAIL_COLLISION. A flow frame's
collision: withdrawn or replaced if the monitor has changed state, else backed off while attempts
remain, else dropped with a count. A frame placed anew holds no limit, d or own address yet, which are
0 (log 12). -/
def Obligations.EndsOfSendingReportCollisions : Prop :=
  (∀ (s : State) (c : Chan),
     (∀ (f : Sending) (u : State), (s.chan c).lineTx = .sending f → (s.chan c).mode ≠ .aborting →
       u = (s.updChan c fun ch => { ch with lineTx := .quiet }) →
       (f.verdict = .clean → exec (.lineTransmitterQuiet c) s = .next u.settle) ∧
       (f.verdict = .collision → f.kind = .response →
         exec (.collisionReported c) s = .next (u.count c .respDropped).settle) ∧
       (f.verdict = .collision → f.kind = .data →
         exec (.collisionReported c) s = .next (u.attemptCollision c).settle) ∧
       (f.verdict = .collision → f.kind = .flow →
         exec (.collisionReported c) s = .next (u.flowCollision c).settle)) ∧
     ((s.chan c).lineTx = .quiet ∨ (s.chan c).mode = .aborting ∨
         (∃ f, (s.chan c).lineTx = .sending f ∧ f.verdict ≠ .clean) →
       exec (.lineTransmitterQuiet c) s = .next s) ∧
     ((s.chan c).lineTx = .quiet ∨ (s.chan c).mode = .aborting ∨
         (∃ f, (s.chan c).lineTx = .sending f ∧ f.verdict ≠ .collision) →
       exec (.collisionReported c) s = .next s)) ∧
  (∀ (s : State) (c : Chan) (ch : Channel) (e : TxEntry) (es : List TxEntry), ch = s.chan c →
     ch.txq = e :: es →
     (ch.sequencer.attempts < 1 + ch.sequencer.limit →
       s.attemptCollision c =
         (s.count c .txCollisions).updChan c fun x =>
           { x with
             sequencer :=
               { x.sequencer with
                 state := .backoff
                 timer := some (16 * (((e.src.toNat % 8 + ch.sequencer.attempts) % 8 + 1) *
                   max 12 ch.backoff.toNat)) } }) ∧
     (1 + ch.sequencer.limit ≤ ch.sequencer.attempts →
       s.attemptCollision c = (s.count c .txCollisions).claim c .failCollision)) ∧
  (∀ (s : State) (c : Chan) (f : FlowFrame), (s.chan c).flow = some f →
     (f.resume = false → s.pool = .normal → (s.chan c).holdOutstanding = true →
       s.flowCollision c = s.updChan c fun ch => { ch with flow := some (newFlow true) }) ∧
     (f.resume = false → s.pool = .normal → (s.chan c).holdOutstanding = false →
       s.flowCollision c = s.updChan c fun ch => { ch with flow := none }) ∧
     (f.resume = true → s.pool = .low →
       s.flowCollision c = s.updChan c fun ch => { ch with flow := some (newFlow false) }) ∧
     ((f.resume = false ∧ s.pool = .low) ∨ (f.resume = true ∧ s.pool = .normal) →
       (f.attempts < 1 + f.limit →
         s.flowCollision c =
           s.updChan c fun ch =>
             { ch with
               flow := some
                 { f with
                   phase := .backoff
                   timer := some (16 * (((f.own.toNat % 8 + f.attempts) % 8 + 1) *
                     max 12 ch.backoff.toNat)) } }) ∧
       (1 + f.limit ≤ f.attempts →
         s.flowCollision c =
           (s.count c .flowDropped).updChan c fun ch => { ch with flow := none })))

/-- The start of a response: on a channel in service with the line transmitter QUIET it leaves the
slot and is sent with the own address, or is dropped with a count where there is none. The command
says that the response gap has passed, whatever of it the slot still shows (log 3). Otherwise the
response does not start (log 2). -/
def Obligations.ResponseStartsOrIsDropped : Prop :=
  ∀ (s : State) (c : Chan) (ch : Channel), ch = s.chan c →
    (∀ r, ch.response = some r → ch.lineTx = .quiet → ch.mode = .run ∨ ch.mode = .stopping →
      (0x01 ≤ ch.ownAddr.toNat → ch.ownAddr.toNat ≤ 0xEF →
        exec (.responseStart c) s = .next
          (s.updChan c fun ch =>
            { ch with
              response := none
              lineTx := .sending
                ⟨.response,
                  withCheck [r.dest, ch.ownAddr,
                    packCtrl (if r.nak then .nak else .ack) false r.seq, 0x00],
                  0, 0, false, .pending⟩ }).settle) ∧
      (ch.ownAddr.toNat = 0 ∨ 0xEF < ch.ownAddr.toNat →
        exec (.responseStart c) s = .next
          ((s.count c .respDropped).updChan c fun ch => { ch with response := none }).settle)) ∧
    (ch.response = none ∨ ch.lineTx ≠ .quiet ∨ ch.mode = .off ∨ ch.mode = .aborting →
      exec (.responseStart c) s = .next s)

/-- The start of a flow frame, when the flow slot is the highest-ranking source and the channel may
send: its attempt count rises, RETRY is latched at the first attempt, and the seven characters are
sent with d from HOLD_TIME or 0 for a RESUME; without an own address it is dropped with a count. The
command says that line idle time has reached S, and it is raised to S (log 3). Where the frame
cannot start, the event does not happen (log 2). -/
def Obligations.FlowFrameStartsOrIsDropped : Prop :=
  ∀ (s : State) (c : Chan) (ch : Channel) (f : FlowFrame) (d : Byte), ch = s.chan c →
    ch.flow = some f →
    d = (if f.resume then 0x00 else if s.holdTime = 0x00 then 0x01 else s.holdTime) →
    (ch.mode = .run ∨ ch.mode = .stopping → ch.lineTx = .quiet → ch.response = none →
      f.phase = .waiting → ch.engine.parser = .hunt → ch.idleRunning = true →
      (0x01 ≤ ch.ownAddr.toNat → ch.ownAddr.toNat ≤ 0xEF →
        exec (.flowFrameStart c) s = .next
          (s.updChan c fun ch =>
            { ch with
              idle := max ch.idle (max 24 (min 1023 ch.spacing.toNat))
              flow := some
                { f with
                  phase := .sending, attempts := f.attempts + 1
                  limit := if f.attempts = 0 then min 15 ch.retry.toNat else f.limit
                  timer := none, d := d, own := ch.ownAddr }
              lineTx := .sending
                ⟨.flow, withCheck [0xFF, ch.ownAddr, 0x30, 0x01, d], 0, 0, false, .pending⟩ })) ∧
      (ch.ownAddr.toNat = 0 ∨ 0xEF < ch.ownAddr.toNat →
        exec (.flowFrameStart c) s = .next
          (((s.updChan c fun ch =>
              { ch with idle := max ch.idle (max 24 (min 1023 ch.spacing.toNat)) }).count c
            .flowDropped).updChan c fun ch => { ch with flow := none }).settle)) ∧
    (f.phase ≠ .waiting ∨ ch.lineTx ≠ .quiet ∨ ch.response ≠ none ∨ ch.engine.parser ≠ .hunt ∨
        ch.idleRunning = false ∨ ch.mode = .off ∨ ch.mode = .aborting →
      exec (.flowFrameStart c) s = .next s)

/-- The start of an attempt, when the sequencer defers and is the highest-ranking source: the
attempt count rises, at the first attempt the head entry becomes active, its chain ACTIVE_TX(c) and
RETRY latched, and the header, the payload at chain offsets 8 to 7 + LEN and the CHECK are sent. It
does not start while the hold timer runs, nor for a head that is not active on a STOPPING channel.
The command says that line idle time has reached S, and it is raised to S (log 3); where the attempt
cannot start, the event does not happen (log 2); and the bytes are read from frame memory at the
start, as no block can write them until the end (log 16). -/
def Obligations.AttemptSendsTheHeadEntry : Prop :=
  ∀ (s : State) (c : Chan) (ch : Channel) (e : TxEntry) (es : List TxEntry) (u : State),
    ch = s.chan c → ch.txq = e :: es →
    (ch.sequencer.attempts = 0 →
      u = { s with pageTable := s.pageTable.own (.activeTx c) (s.chainPages e.head) }) →
    (ch.sequencer.attempts ≠ 0 → u = s) →
    (ch.sequencer.state = .defer → ch.lineTx = .quiet → ch.response = none →
      (∀ f, ch.flow = some f → f.phase ≠ .waiting) → ch.engine.parser = .hunt →
      ch.idleRunning = true → ch.holdTimer = none →
      ch.mode = .run ∨ (ch.mode = .stopping ∧ e.active = true) →
      exec (.attemptStart c) s = .next
        (u.updChan c fun ch =>
          { ch with
            idle := max ch.idle (max 24 (min 1023 ch.spacing.toNat))
            txq := { e with active := true } :: es
            sequencer :=
              { ch.sequencer with
                state := .attempt, attempts := ch.sequencer.attempts + 1
                limit :=
                  if ch.sequencer.attempts = 0 then min 15 ch.retry.toNat else ch.sequencer.limit
                timer := none }
            lineTx := .sending
              ⟨.data,
                withCheck ([e.dest, e.src, packCtrl .data e.ar e.seq, e.len] ++
                  (List.range e.len.toNat).map fun i => s.chainByte e.head (8 + i)),
                0, 0, false, .pending⟩ })) ∧
    (ch.sequencer.state ≠ .defer ∨ ch.lineTx ≠ .quiet ∨ ch.response ≠ none ∨
        (∃ f, ch.flow = some f ∧ f.phase = .waiting) ∨ ch.engine.parser ≠ .hunt ∨
        ch.idleRunning = false ∨ ch.holdTimer ≠ none ∨ ch.mode = .off ∨ ch.mode = .aborting ∨
        (ch.mode = .stopping ∧ e.active = false) →
      exec (.attemptStart c) s = .next s)

/-- The sequencer's timers: backoff and busy expiry return to DEFER with the entry and the attempt
count kept; ack expiry counts TX_ACK_TIMEOUTS and returns to DEFER while attempts remain, else the
entry completes FAIL_NOACK. In another state the event does not happen (log 2). The flow and hold
timers: the hold timer stops; refresh expiry stops the timer and places a new HOLD; a flow frame's
backoff ends and it waits for the line again. A timer that does not run changes nothing (log 2). An
expiry says that its timer has run out, whatever it still holds (log 3). A HOLD placed anew holds no
limit, d or own address yet, which are 0 (log 12). -/
def Obligations.TimersExpire : Prop :=
  (∀ (s : State) (c : Chan) (q : Sequencer) (back : Channel → Channel), q = (s.chan c).sequencer →
     (∀ ch, back ch =
       { ch with sequencer := { ch.sequencer with state := .defer, timer := none } }) →
     (q.state = .backoff → exec (.backoffExpiry c) s = .next (s.updChan c back)) ∧
     (q.state ≠ .backoff → exec (.backoffExpiry c) s = .next s) ∧
     (q.state = .busyWait → exec (.busyExpiry c) s = .next (s.updChan c back)) ∧
     (q.state ≠ .busyWait → exec (.busyExpiry c) s = .next s) ∧
     (q.state = .awaitAck → q.attempts < 1 + q.limit →
       exec (.txAckTimeouts c) s = .next ((s.count c .txAckTimeouts).updChan c back).settle) ∧
     (q.state = .awaitAck → 1 + q.limit ≤ q.attempts →
       exec (.txAckTimeouts c) s = .next ((s.count c .txAckTimeouts).claim c .failNoAck).settle) ∧
     (q.state ≠ .awaitAck → exec (.txAckTimeouts c) s = .next s)) ∧
  (∀ (s : State) (c : Chan),
     exec (.holdTimerExpiry c) s = .next (s.updChan c fun ch => { ch with holdTimer := none }) ∧
     ((s.chan c).refresh ≠ none →
       exec (.refreshExpiry c) s = .next
         (s.updChan c fun ch => { ch with refresh := none, flow := some (newFlow false) })) ∧
     ((s.chan c).refresh = none → exec (.refreshExpiry c) s = .next s) ∧
     (∀ f, (s.chan c).flow = some f → f.phase = .backoff →
       exec (.flowBackoffExpiry c) s = .next
         (s.updChan c fun ch => { ch with flow := some { f with phase := .waiting, timer := none } })) ∧
     ((∀ f, (s.chan c).flow = some f → f.phase ≠ .backoff) →
       exec (.flowBackoffExpiry c) s = .next s))

/-! ### Formats -/

/-- The check: preset to FFFFh, each byte fed bit 7 first, with the feedback of bit 15 and the data bit,
one place shifted toward bit 15 and 1021h; 29B1h over the ASCII digits 1 to 9, 0 over any frame with its
CHECK characters. A frame is its own bytes, then CHECK, high byte first. The CTRL byte keeps its fields;
and pages(L) by its table. -/
def Obligations.FramesCarryTheirCheckAndFields : Prop :=
  crc [] = 0xFFFF ∧
  (∀ (bytes : List Byte) (b : Byte),
    crc (bytes ++ [b]) =
      [7, 6, 5, 4, 3, 2, 1, 0].foldl
        (fun (r : Half) i =>
          if r.getLsbD 15 = b.getLsbD i then r <<< 1 else (r <<< 1) ^^^ 0x1021) (crc bytes) ∧
    crc (bytes ++ [b]) = crcByte (crc bytes) b) ∧
  (∀ bytes : List Byte,
    withCheck bytes =
      bytes ++ [(crc bytes).extractLsb' 8 8, (crc bytes).extractLsb' 0 8]) ∧
  crc [0x31, 0x32, 0x33, 0x34, 0x35, 0x36, 0x37, 0x38, 0x39] = 0x29B1 ∧
  (∀ bytes : List Byte, crc (withCheck bytes) = 0x0000) ∧
  (∀ (k : Kind) (ar : Bool) (q : BitVec 3),
    ctrlKind (packCtrl k ar q) = k ∧ ctrlAr (packCtrl k ar q) = ar ∧
    ctrlSeq (packCtrl k ar q) = q ∧ ctrlReserved (packCtrl k ar q) = false) ∧
  packCtrl .data false 5 = 0x05 ∧ packCtrl .data true 3 = 0x0B ∧ packCtrl .ack false 3 = 0x13 ∧
  packCtrl .nak false 2 = 0x22 ∧ packCtrl .hold false 0 = 0x30 ∧
  (∀ l : Nat, l ≤ 56 → pagesFor l = 1) ∧ (∀ l, 57 ≤ l → l ≤ 120 → pagesFor l = 2) ∧
  (∀ l, 121 ≤ l → l ≤ 184 → pagesFor l = 3) ∧ (∀ l, 185 ≤ l → l ≤ 240 → pagesFor l = 4)

/-! ### What every step keeps -/

/-- Frame memory and the page table stay in their canonical form, the model's own: what they list is
in rising order and differs from what an unlisted byte (log 5) or record (log 25) is. -/
def Obligations.StepKeepsTablesCanonical : Prop :=
  ∀ s t : State, s.Canonical → step s = .next t → t.Canonical

/-- The received frame queue never holds more than 32 entries, the completion queue more than 16, the
sequence table more than 32 or two for one channel and source, a transmit queue more than 8; the bits
that registers do not define stay 0; and a channel is ABORTING exactly while the command unit is busy
with its ABORT. -/
def Obligations.StepKeepsCapacitiesAndReservedBits : Prop :=
  ∀ s t : State, s.Bounded → s.SeqKeysDistinct → s.ReservedZero → s.BusyIffAborting →
    step s = .next t → t.Bounded ∧ t.SeqKeysDistinct ∧ t.ReservedZero ∧ t.BusyIffAborting

/-- Every channel keeps its law, and none is left STOPPING with nothing to wait for; the flow slots
keep to the pool monitor's state, so that the rows its tables do not have are not reached (log 21). -/
def Obligations.StepKeepsChannelsLaw : Prop :=
  ∀ s t : State, s.ChannelsLaw → step s = .next t → t.ChannelsLaw

/-- Every page is on the free list once or in one chain with one holder: the law of pages is kept by
every step from a state in which the channels keep theirs. The data port keeps its law with it:
attached or at its end it names the head of a HELD chain with its offset inside the chain. -/
def Obligations.StepKeepsEveryPageAccountedFor : Prop :=
  ∀ s t : State, s.Canonical → s.ChannelsLaw → s.PagesLaw → step s = .next t →
    t.PagesLaw ∧ (s.PortLaw → t.PortLaw)

/-- The part after pin reset keeps every one of these laws. -/
def Obligations.ResetKeepsEveryLaw : Prop :=
  State.reset.Canonical ∧ State.reset.Bounded ∧ State.reset.SeqKeysDistinct ∧
  State.reset.ReservedZero ∧ State.reset.BusyIffAborting ∧ State.reset.ChannelsLaw ∧
  State.reset.PagesLaw ∧ State.reset.PortLaw

/-! ### Time and the lines -/

/-- A channel not OFF has a sample tick every DIV + 1 REFCLK periods of the latched DIV; in OFF
none. At a sample tick the receiver samples the line: a low sample where it looks for one is a
falling edge; eight ticks after the edge a high line is a false start and a low one a start bit;
data and marker bits are sampled in the middle of their cells, and the character is complete in the
middle of the first stop bit. A low period begins at its first low sample, grows, and ends at a high
one. Line idle time counts whole bit times up to 1023, every running timer counts down, characters
are sent back to back, and nothing else changes. While a frame is sent DEn is active and TXDn shows
the cell of the character being sent, the marker bit 1 in the first character alone; otherwise DEn
is released and TXDn high. With RESET# high these are the levels of the part's lines. The phase of the
ticks, and so that of a frame's first cell against them, is the model's (logs 4 and 27). -/
def Obligations.SampleTicksMoveTheChannel : Prop :=
  (∀ ch : Channel,
     (ch.mode = .off → ch.clock = ch) ∧
     (ch.mode ≠ .off → ch.prescale < ch.latchedDiv.toNat →
       ch.clock = { ch with prescale := ch.prescale + 1 }) ∧
     (ch.mode ≠ .off → ch.latchedDiv.toNat ≤ ch.prescale →
       ch.clock = { ch with prescale := 0 }.sampleTick)) ∧
  (∀ ch t : Channel, t = ch.sampleTick →
     t = { ch with
           rx := t.rx, rxTicks := t.rxTicks, rxBits := t.rxBits, lowPeriod := t.lowPeriod
           idle := t.idle, idlePhase := t.idlePhase, lineTx := t.lineTx
           response := ch.response.map fun r => { r with gap := r.gap - 1 }
           sequencer := { ch.sequencer with timer := ch.sequencer.timer.map fun n => n - 1 }
           flow := ch.flow.map fun f => { f with timer := f.timer.map fun n => n - 1 }
           refresh := ch.refresh.map fun n => n - 1
           holdTimer := ch.holdTimer.map fun n => n - 1 } ∧
     ((ch.rx = .looking → ch.rxd = true → t.rx = .looking) ∧
       (ch.rx = .looking → ch.rxd = false → t.rx = .candidate ∧ t.rxTicks = 0) ∧
       (ch.rx = .candidate → ch.rxTicks < 7 → t.rx = .candidate ∧ t.rxTicks = ch.rxTicks + 1) ∧
       (ch.rx = .candidate → ch.rxTicks = 7 → ch.rxd = true → t.rx = .looking) ∧
       (ch.rx = .candidate → ch.rxTicks = 7 → ch.rxd = false → t.rx = .candidate ∧ t.rxTicks = 8) ∧
       (ch.rx = .inCharacter → t.rx = .inCharacter ∧ t.rxTicks = ch.rxTicks + 1) ∧
       (∀ i : Nat, i < 9 → ch.rx = .inCharacter → t.rxTicks = 16 * (i + 1) + 8 →
         t.rxBits.getLsbD 8 = ch.rxd ∧ ∀ j : Nat, j < 8 → t.rxBits.getLsbD j = ch.rxBits.getLsbD (j + 1)) ∧
       ((∀ i : Nat, i < 9 → t.rxTicks ≠ 16 * (i + 1) + 8) → t.rxTicks ≠ 8 → t.rxBits = ch.rxBits) ∧
       (ch.rx = .waitHigh → t.rx = .waitHigh)) ∧
     ((ch.rxd = true → t.lowPeriod = none) ∧
       (ch.rxd = false → ch.lowPeriod = none → t.lowPeriod = some ⟨0, false⟩) ∧
       (∀ l, ch.rxd = false → ch.lowPeriod = some l →
         t.lowPeriod = some ⟨l.ticks + 1, l.raised⟩)) ∧
     ((ch.idleRunning = false → t.idle = ch.idle ∧ t.idlePhase = ch.idlePhase) ∧
       (ch.idleRunning = true → ch.idlePhase < 15 →
         t.idle = ch.idle ∧ t.idlePhase = ch.idlePhase + 1) ∧
       (ch.idleRunning = true → 15 ≤ ch.idlePhase →
         t.idle = min 1023 (ch.idle + 1) ∧ t.idlePhase = 0)) ∧
     (ch.lineTx = .quiet → t.lineTx = .quiet) ∧
     (∀ (f : Sending) (n : Nat), ch.lineTx = .sending f →
       n = (16 * if ch.latchedTwoStop then 12 else 11) →
       (f.ticks + 1 < n → t.lineTx = .sending { f with ticks := f.ticks + 1 }) ∧
       (n ≤ f.ticks + 1 → f.verdict = .pending → ch.mode ≠ .aborting →
         f.index + 1 < f.chars.length →
         t.lineTx = .sending { f with index := f.index + 1, ticks := 0, readBack := false }) ∧
       (n ≤ f.ticks + 1 → f.verdict ≠ .pending ∨ ch.mode = .aborting ∨ f.chars.length ≤ f.index + 1 →
         t.lineTx = .sending { f with ticks := n }))) ∧
  (∀ ch : Channel,
     (ch.lineTx = .quiet → ch.de = false ∧ ch.txd = true) ∧
     (∀ (f : Sending) (b : Byte) (k : Nat), ch.lineTx = .sending f → f.chars[f.index]? = some b →
       k = f.ticks / 16 →
       ch.de = true ∧ (k = 0 → ch.txd = false) ∧
       (1 ≤ k → k ≤ 8 → ch.txd = b.getLsbD (k - 1)) ∧ (k = 9 → ch.txd = (f.index == 0)) ∧
       (10 ≤ k → ch.txd = true))) ∧
  (∀ (s : State) (c : Chan), s.resetLow = false →
     s.de c = (s.chan c).de ∧ s.txd c = (s.chan c).txd)

end
end

