-- ==== Sys2Proof/Laws/State.lean ====
section
/-!
SUPPORT. The small lemmas of the state: what each field is after each named update, true by
definition, and how a channel is read after a channel is changed.
-/
namespace Sys2Proof

/-! ### Groups of four -/

theorem Quad.get_set_same {α : Type} (q : Quad α) (c : Chan) (x : α) : (q.set c x).get c = x := by
  match c with
  | 0 => rfl
  | 1 => rfl
  | 2 => rfl
  | 3 => rfl

theorem Quad.get_set_ne {α : Type} (q : Quad α) {c d : Chan} (x : α) (h : d ≠ c) :
    (q.set c x).get d = q.get d := by
  match c, d with
  | 0, 0 | 1, 1 | 2, 2 | 3, 3 => exact absurd rfl h
  | 0, 1 | 0, 2 | 0, 3 => rfl
  | 1, 0 | 1, 2 | 1, 3 => rfl
  | 2, 0 | 2, 1 | 2, 3 => rfl
  | 3, 0 | 3, 1 | 3, 2 => rfl

@[simp] theorem Quad.get_map {α β : Type} (f : α → β) (q : Quad α) (c : Chan) :
    (q.map f).get c = f (q.get c) := by
  match c with
  | 0 => rfl
  | 1 => rfl
  | 2 => rfl
  | 3 => rfl

@[simp] theorem Quad.get_all {α : Type} (x : α) (c : Chan) : (Quad.all x).get c = x := by
  match c with
  | 0 => rfl
  | 1 => rfl
  | 2 => rfl
  | 3 => rfl

/-- Two groups are equal when they agree at every channel. -/
theorem Quad.ext_get {α : Type} {q r : Quad α} (h : ∀ c, q.get c = r.get c) : q = r := by
  cases q; cases r
  have h0 := h 0
  have h1 := h 1
  have h2 := h 2
  have h3 := h 3
  simp only [Quad.get] at h0 h1 h2 h3
  subst h0 h1 h2 h3
  rfl

theorem Quad.any_iff {α : Type} (p : α → Bool) (q : Quad α) :
    q.any p = true ↔ ∃ c, p (q.get c) = true := by
  constructor
  · intro h
    simp only [Quad.any, Bool.or_eq_true] at h
    rcases h with ((h | h) | h) | h
    · exact ⟨0, h⟩
    · exact ⟨1, h⟩
    · exact ⟨2, h⟩
    · exact ⟨3, h⟩
  · rintro ⟨c, h⟩
    match c with
    | 0 => simp [Quad.any, show p q.ch0 = true from h]
    | 1 => simp [Quad.any, show p q.ch1 = true from h]
    | 2 => simp [Quad.any, show p q.ch2 = true from h]
    | 3 => simp [Quad.any, show p q.ch3 = true from h]

theorem Quad.map_eq_self {α : Type} {f : α → α} {q : Quad α} (h : ∀ c, f (q.get c) = q.get c) :
    q.map f = q := Quad.ext_get fun c => by rw [Quad.get_map, h c]

namespace Machine
namespace State

/-! ### Channels -/

theorem chan_def (s : State) (c : Chan) : s.chan c = s.chans.get c := rfl

@[simp] theorem chan_updChan_same (s : State) (c : Chan) (f : Channel → Channel) :
    (s.updChan c f).chan c = f (s.chan c) := Quad.get_set_same ..

theorem chan_updChan_ne (s : State) {c d : Chan} (f : Channel → Channel) (h : d ≠ c) :
    (s.updChan c f).chan d = s.chan d := Quad.get_set_ne _ _ h

theorem chan_updChan (s : State) (c d : Chan) (f : Channel → Channel) :
    (s.updChan c f).chan d = if d = c then f (s.chan c) else s.chan d := by
  split
  · next h => subst h; simp
  · next h => exact chan_updChan_ne s f h

/-- One REFCLK period, channel by channel. -/
@[simp] theorem chan_advance (s : State) (c : Chan) : s.advance.chan c = s.clockChan c := by
  match c with
  | 0 => rfl
  | 1 => rfl
  | 2 => rfl
  | 3 => rfl

/-- States that agree at every channel and in all else are equal. -/
theorem eq_of_chans {s t : State} (h : ∀ c, s.chan c = t.chan c) (r : { s with chans := t.chans } = t) :
    s = t := by
  have hc : s.chans = t.chans := Quad.ext_get h
  rw [← r, ← hc]

/-! ### raise -/

@[simp] theorem raise_pending (s : State) (e : Event) :
    (s.raise e).pending = s.pending := rfl

@[simp] theorem raise_resetLow (s : State) (e : Event) :
    (s.raise e).resetLow = s.resetLow := rfl

@[simp] theorem raise_resetIn (s : State) (e : Event) :
    (s.raise e).resetIn = s.resetIn := rfl

@[simp] theorem raise_rxdIn (s : State) (e : Event) :
    (s.raise e).rxdIn = s.rxdIn := rfl

@[simp] theorem raise_dOut (s : State) (e : Event) :
    (s.raise e).dOut = s.dOut := rfl

@[simp] theorem raise_arg (s : State) (e : Event) :
    (s.raise e).arg = s.arg := rfl

@[simp] theorem raise_res (s : State) (e : Event) :
    (s.raise e).res = s.res := rfl

@[simp] theorem raise_cmdStatus (s : State) (e : Event) :
    (s.raise e).cmdStatus = s.cmdStatus := rfl

@[simp] theorem raise_busy (s : State) (e : Event) :
    (s.raise e).busy = s.busy := rfl

@[simp] theorem raise_event (s : State) (e : Event) :
    (s.raise e).event = s.event ||| e.mask := rfl

@[simp] theorem raise_eventEn (s : State) (e : Event) :
    (s.raise e).eventEn = s.eventEn := rfl

@[simp] theorem raise_condEn (s : State) (e : Event) :
    (s.raise e).condEn = s.condEn := rfl

@[simp] theorem raise_snapEvent (s : State) (e : Event) :
    (s.raise e).snapEvent = s.snapEvent := rfl

@[simp] theorem raise_snapEventEn (s : State) (e : Event) :
    (s.raise e).snapEventEn = s.snapEventEn := rfl

@[simp] theorem raise_snapFree (s : State) (e : Event) :
    (s.raise e).snapFree = s.snapFree := rfl

@[simp] theorem raise_snapDiv (s : State) (e : Event) :
    (s.raise e).snapDiv = s.snapDiv := rfl

@[simp] theorem raise_snapSpacing (s : State) (e : Event) :
    (s.raise e).snapSpacing = s.snapSpacing := rfl

@[simp] theorem raise_chsel (s : State) (e : Event) :
    (s.raise e).chsel = s.chsel := rfl

@[simp] theorem raise_mem (s : State) (e : Event) :
    (s.raise e).mem = s.mem := rfl

@[simp] theorem raise_pageTable (s : State) (e : Event) :
    (s.raise e).pageTable = s.pageTable := rfl

@[simp] theorem raise_freeList (s : State) (e : Event) :
    (s.raise e).freeList = s.freeList := rfl

@[simp] theorem raise_reserve (s : State) (e : Event) :
    (s.raise e).reserve = s.reserve := rfl

@[simp] theorem raise_lastRx (s : State) (e : Event) :
    (s.raise e).lastRx = s.lastRx := rfl

@[simp] theorem raise_port (s : State) (e : Event) :
    (s.raise e).port = s.port := rfl

@[simp] theorem raise_station (s : State) (e : Event) :
    (s.raise e).station = s.station := rfl

@[simp] theorem raise_seqTable (s : State) (e : Event) :
    (s.raise e).seqTable = s.seqTable := rfl

@[simp] theorem raise_rfq (s : State) (e : Event) :
    (s.raise e).rfq = s.rfq := rfl

@[simp] theorem raise_arrival (s : State) (e : Event) :
    (s.raise e).arrival = s.arrival := rfl

@[simp] theorem raise_tcq (s : State) (e : Event) :
    (s.raise e).tcq = s.tcq := rfl

@[simp] theorem raise_lastTcq (s : State) (e : Event) :
    (s.raise e).lastTcq = s.lastTcq := rfl

@[simp] theorem raise_pool (s : State) (e : Event) :
    (s.raise e).pool = s.pool := rfl

@[simp] theorem raise_holdLevel (s : State) (e : Event) :
    (s.raise e).holdLevel = s.holdLevel := rfl

@[simp] theorem raise_resumeLevel (s : State) (e : Event) :
    (s.raise e).resumeLevel = s.resumeLevel := rfl

@[simp] theorem raise_holdTime (s : State) (e : Event) :
    (s.raise e).holdTime = s.holdTime := rfl

@[simp] theorem raise_chans (s : State) (e : Event) :
    (s.raise e).chans = s.chans := rfl

/-! ### updChan -/

@[simp] theorem updChan_pending (s : State) (c : Chan) (f : Channel → Channel) :
    (s.updChan c f).pending = s.pending := rfl

@[simp] theorem updChan_resetLow (s : State) (c : Chan) (f : Channel → Channel) :
    (s.updChan c f).resetLow = s.resetLow := rfl

@[simp] theorem updChan_resetIn (s : State) (c : Chan) (f : Channel → Channel) :
    (s.updChan c f).resetIn = s.resetIn := rfl

@[simp] theorem updChan_rxdIn (s : State) (c : Chan) (f : Channel → Channel) :
    (s.updChan c f).rxdIn = s.rxdIn := rfl

@[simp] theorem updChan_dOut (s : State) (c : Chan) (f : Channel → Channel) :
    (s.updChan c f).dOut = s.dOut := rfl

@[simp] theorem updChan_arg (s : State) (c : Chan) (f : Channel → Channel) :
    (s.updChan c f).arg = s.arg := rfl

@[simp] theorem updChan_res (s : State) (c : Chan) (f : Channel → Channel) :
    (s.updChan c f).res = s.res := rfl

@[simp] theorem updChan_cmdStatus (s : State) (c : Chan) (f : Channel → Channel) :
    (s.updChan c f).cmdStatus = s.cmdStatus := rfl

@[simp] theorem updChan_busy (s : State) (c : Chan) (f : Channel → Channel) :
    (s.updChan c f).busy = s.busy := rfl

@[simp] theorem updChan_event (s : State) (c : Chan) (f : Channel → Channel) :
    (s.updChan c f).event = s.event := rfl

@[simp] theorem updChan_eventEn (s : State) (c : Chan) (f : Channel → Channel) :
    (s.updChan c f).eventEn = s.eventEn := rfl

@[simp] theorem updChan_condEn (s : State) (c : Chan) (f : Channel → Channel) :
    (s.updChan c f).condEn = s.condEn := rfl

@[simp] theorem updChan_snapEvent (s : State) (c : Chan) (f : Channel → Channel) :
    (s.updChan c f).snapEvent = s.snapEvent := rfl

@[simp] theorem updChan_snapEventEn (s : State) (c : Chan) (f : Channel → Channel) :
    (s.updChan c f).snapEventEn = s.snapEventEn := rfl

@[simp] theorem updChan_snapFree (s : State) (c : Chan) (f : Channel → Channel) :
    (s.updChan c f).snapFree = s.snapFree := rfl

@[simp] theorem updChan_snapDiv (s : State) (c : Chan) (f : Channel → Channel) :
    (s.updChan c f).snapDiv = s.snapDiv := rfl

@[simp] theorem updChan_snapSpacing (s : State) (c : Chan) (f : Channel → Channel) :
    (s.updChan c f).snapSpacing = s.snapSpacing := rfl

@[simp] theorem updChan_chsel (s : State) (c : Chan) (f : Channel → Channel) :
    (s.updChan c f).chsel = s.chsel := rfl

@[simp] theorem updChan_mem (s : State) (c : Chan) (f : Channel → Channel) :
    (s.updChan c f).mem = s.mem := rfl

@[simp] theorem updChan_pageTable (s : State) (c : Chan) (f : Channel → Channel) :
    (s.updChan c f).pageTable = s.pageTable := rfl

@[simp] theorem updChan_freeList (s : State) (c : Chan) (f : Channel → Channel) :
    (s.updChan c f).freeList = s.freeList := rfl

@[simp] theorem updChan_reserve (s : State) (c : Chan) (f : Channel → Channel) :
    (s.updChan c f).reserve = s.reserve := rfl

@[simp] theorem updChan_lastRx (s : State) (c : Chan) (f : Channel → Channel) :
    (s.updChan c f).lastRx = s.lastRx := rfl

@[simp] theorem updChan_port (s : State) (c : Chan) (f : Channel → Channel) :
    (s.updChan c f).port = s.port := rfl

@[simp] theorem updChan_station (s : State) (c : Chan) (f : Channel → Channel) :
    (s.updChan c f).station = s.station := rfl

@[simp] theorem updChan_seqTable (s : State) (c : Chan) (f : Channel → Channel) :
    (s.updChan c f).seqTable = s.seqTable := rfl

@[simp] theorem updChan_rfq (s : State) (c : Chan) (f : Channel → Channel) :
    (s.updChan c f).rfq = s.rfq := rfl

@[simp] theorem updChan_arrival (s : State) (c : Chan) (f : Channel → Channel) :
    (s.updChan c f).arrival = s.arrival := rfl

@[simp] theorem updChan_tcq (s : State) (c : Chan) (f : Channel → Channel) :
    (s.updChan c f).tcq = s.tcq := rfl

@[simp] theorem updChan_lastTcq (s : State) (c : Chan) (f : Channel → Channel) :
    (s.updChan c f).lastTcq = s.lastTcq := rfl

@[simp] theorem updChan_pool (s : State) (c : Chan) (f : Channel → Channel) :
    (s.updChan c f).pool = s.pool := rfl

@[simp] theorem updChan_holdLevel (s : State) (c : Chan) (f : Channel → Channel) :
    (s.updChan c f).holdLevel = s.holdLevel := rfl

@[simp] theorem updChan_resumeLevel (s : State) (c : Chan) (f : Channel → Channel) :
    (s.updChan c f).resumeLevel = s.resumeLevel := rfl

@[simp] theorem updChan_holdTime (s : State) (c : Chan) (f : Channel → Channel) :
    (s.updChan c f).holdTime = s.holdTime := rfl

@[simp] theorem updChan_chans (s : State) (c : Chan) (f : Channel → Channel) :
    (s.updChan c f).chans = s.chans.set c (f (s.chans.get c)) := rfl

/-! ### updEngine -/

@[simp] theorem updEngine_pending (s : State) (c : Chan) (f : Engine → Engine) :
    (s.updEngine c f).pending = s.pending := rfl

@[simp] theorem updEngine_resetLow (s : State) (c : Chan) (f : Engine → Engine) :
    (s.updEngine c f).resetLow = s.resetLow := rfl

@[simp] theorem updEngine_resetIn (s : State) (c : Chan) (f : Engine → Engine) :
    (s.updEngine c f).resetIn = s.resetIn := rfl

@[simp] theorem updEngine_rxdIn (s : State) (c : Chan) (f : Engine → Engine) :
    (s.updEngine c f).rxdIn = s.rxdIn := rfl

@[simp] theorem updEngine_dOut (s : State) (c : Chan) (f : Engine → Engine) :
    (s.updEngine c f).dOut = s.dOut := rfl

@[simp] theorem updEngine_arg (s : State) (c : Chan) (f : Engine → Engine) :
    (s.updEngine c f).arg = s.arg := rfl

@[simp] theorem updEngine_res (s : State) (c : Chan) (f : Engine → Engine) :
    (s.updEngine c f).res = s.res := rfl

@[simp] theorem updEngine_cmdStatus (s : State) (c : Chan) (f : Engine → Engine) :
    (s.updEngine c f).cmdStatus = s.cmdStatus := rfl

@[simp] theorem updEngine_busy (s : State) (c : Chan) (f : Engine → Engine) :
    (s.updEngine c f).busy = s.busy := rfl

@[simp] theorem updEngine_event (s : State) (c : Chan) (f : Engine → Engine) :
    (s.updEngine c f).event = s.event := rfl

@[simp] theorem updEngine_eventEn (s : State) (c : Chan) (f : Engine → Engine) :
    (s.updEngine c f).eventEn = s.eventEn := rfl

@[simp] theorem updEngine_condEn (s : State) (c : Chan) (f : Engine → Engine) :
    (s.updEngine c f).condEn = s.condEn := rfl

@[simp] theorem updEngine_snapEvent (s : State) (c : Chan) (f : Engine → Engine) :
    (s.updEngine c f).snapEvent = s.snapEvent := rfl

@[simp] theorem updEngine_snapEventEn (s : State) (c : Chan) (f : Engine → Engine) :
    (s.updEngine c f).snapEventEn = s.snapEventEn := rfl

@[simp] theorem updEngine_snapFree (s : State) (c : Chan) (f : Engine → Engine) :
    (s.updEngine c f).snapFree = s.snapFree := rfl

@[simp] theorem updEngine_snapDiv (s : State) (c : Chan) (f : Engine → Engine) :
    (s.updEngine c f).snapDiv = s.snapDiv := rfl

@[simp] theorem updEngine_snapSpacing (s : State) (c : Chan) (f : Engine → Engine) :
    (s.updEngine c f).snapSpacing = s.snapSpacing := rfl

@[simp] theorem updEngine_chsel (s : State) (c : Chan) (f : Engine → Engine) :
    (s.updEngine c f).chsel = s.chsel := rfl

@[simp] theorem updEngine_mem (s : State) (c : Chan) (f : Engine → Engine) :
    (s.updEngine c f).mem = s.mem := rfl

@[simp] theorem updEngine_pageTable (s : State) (c : Chan) (f : Engine → Engine) :
    (s.updEngine c f).pageTable = s.pageTable := rfl

@[simp] theorem updEngine_freeList (s : State) (c : Chan) (f : Engine → Engine) :
    (s.updEngine c f).freeList = s.freeList := rfl

@[simp] theorem updEngine_reserve (s : State) (c : Chan) (f : Engine → Engine) :
    (s.updEngine c f).reserve = s.reserve := rfl

@[simp] theorem updEngine_lastRx (s : State) (c : Chan) (f : Engine → Engine) :
    (s.updEngine c f).lastRx = s.lastRx := rfl

@[simp] theorem updEngine_port (s : State) (c : Chan) (f : Engine → Engine) :
    (s.updEngine c f).port = s.port := rfl

@[simp] theorem updEngine_station (s : State) (c : Chan) (f : Engine → Engine) :
    (s.updEngine c f).station = s.station := rfl

@[simp] theorem updEngine_seqTable (s : State) (c : Chan) (f : Engine → Engine) :
    (s.updEngine c f).seqTable = s.seqTable := rfl

@[simp] theorem updEngine_rfq (s : State) (c : Chan) (f : Engine → Engine) :
    (s.updEngine c f).rfq = s.rfq := rfl

@[simp] theorem updEngine_arrival (s : State) (c : Chan) (f : Engine → Engine) :
    (s.updEngine c f).arrival = s.arrival := rfl

@[simp] theorem updEngine_tcq (s : State) (c : Chan) (f : Engine → Engine) :
    (s.updEngine c f).tcq = s.tcq := rfl

@[simp] theorem updEngine_lastTcq (s : State) (c : Chan) (f : Engine → Engine) :
    (s.updEngine c f).lastTcq = s.lastTcq := rfl

@[simp] theorem updEngine_pool (s : State) (c : Chan) (f : Engine → Engine) :
    (s.updEngine c f).pool = s.pool := rfl

@[simp] theorem updEngine_holdLevel (s : State) (c : Chan) (f : Engine → Engine) :
    (s.updEngine c f).holdLevel = s.holdLevel := rfl

@[simp] theorem updEngine_resumeLevel (s : State) (c : Chan) (f : Engine → Engine) :
    (s.updEngine c f).resumeLevel = s.resumeLevel := rfl

@[simp] theorem updEngine_holdTime (s : State) (c : Chan) (f : Engine → Engine) :
    (s.updEngine c f).holdTime = s.holdTime := rfl

/-! ### updSeq -/

@[simp] theorem updSeq_pending (s : State) (c : Chan) (f : Sequencer → Sequencer) :
    (s.updSeq c f).pending = s.pending := rfl

@[simp] theorem updSeq_resetLow (s : State) (c : Chan) (f : Sequencer → Sequencer) :
    (s.updSeq c f).resetLow = s.resetLow := rfl

@[simp] theorem updSeq_resetIn (s : State) (c : Chan) (f : Sequencer → Sequencer) :
    (s.updSeq c f).resetIn = s.resetIn := rfl

@[simp] theorem updSeq_rxdIn (s : State) (c : Chan) (f : Sequencer → Sequencer) :
    (s.updSeq c f).rxdIn = s.rxdIn := rfl

@[simp] theorem updSeq_dOut (s : State) (c : Chan) (f : Sequencer → Sequencer) :
    (s.updSeq c f).dOut = s.dOut := rfl

@[simp] theorem updSeq_arg (s : State) (c : Chan) (f : Sequencer → Sequencer) :
    (s.updSeq c f).arg = s.arg := rfl

@[simp] theorem updSeq_res (s : State) (c : Chan) (f : Sequencer → Sequencer) :
    (s.updSeq c f).res = s.res := rfl

@[simp] theorem updSeq_cmdStatus (s : State) (c : Chan) (f : Sequencer → Sequencer) :
    (s.updSeq c f).cmdStatus = s.cmdStatus := rfl

@[simp] theorem updSeq_busy (s : State) (c : Chan) (f : Sequencer → Sequencer) :
    (s.updSeq c f).busy = s.busy := rfl

@[simp] theorem updSeq_event (s : State) (c : Chan) (f : Sequencer → Sequencer) :
    (s.updSeq c f).event = s.event := rfl

@[simp] theorem updSeq_eventEn (s : State) (c : Chan) (f : Sequencer → Sequencer) :
    (s.updSeq c f).eventEn = s.eventEn := rfl

@[simp] theorem updSeq_condEn (s : State) (c : Chan) (f : Sequencer → Sequencer) :
    (s.updSeq c f).condEn = s.condEn := rfl

@[simp] theorem updSeq_snapEvent (s : State) (c : Chan) (f : Sequencer → Sequencer) :
    (s.updSeq c f).snapEvent = s.snapEvent := rfl

@[simp] theorem updSeq_snapEventEn (s : State) (c : Chan) (f : Sequencer → Sequencer) :
    (s.updSeq c f).snapEventEn = s.snapEventEn := rfl

@[simp] theorem updSeq_snapFree (s : State) (c : Chan) (f : Sequencer → Sequencer) :
    (s.updSeq c f).snapFree = s.snapFree := rfl

@[simp] theorem updSeq_snapDiv (s : State) (c : Chan) (f : Sequencer → Sequencer) :
    (s.updSeq c f).snapDiv = s.snapDiv := rfl

@[simp] theorem updSeq_snapSpacing (s : State) (c : Chan) (f : Sequencer → Sequencer) :
    (s.updSeq c f).snapSpacing = s.snapSpacing := rfl

@[simp] theorem updSeq_chsel (s : State) (c : Chan) (f : Sequencer → Sequencer) :
    (s.updSeq c f).chsel = s.chsel := rfl

@[simp] theorem updSeq_mem (s : State) (c : Chan) (f : Sequencer → Sequencer) :
    (s.updSeq c f).mem = s.mem := rfl

@[simp] theorem updSeq_pageTable (s : State) (c : Chan) (f : Sequencer → Sequencer) :
    (s.updSeq c f).pageTable = s.pageTable := rfl

@[simp] theorem updSeq_freeList (s : State) (c : Chan) (f : Sequencer → Sequencer) :
    (s.updSeq c f).freeList = s.freeList := rfl

@[simp] theorem updSeq_reserve (s : State) (c : Chan) (f : Sequencer → Sequencer) :
    (s.updSeq c f).reserve = s.reserve := rfl

@[simp] theorem updSeq_lastRx (s : State) (c : Chan) (f : Sequencer → Sequencer) :
    (s.updSeq c f).lastRx = s.lastRx := rfl

@[simp] theorem updSeq_port (s : State) (c : Chan) (f : Sequencer → Sequencer) :
    (s.updSeq c f).port = s.port := rfl

@[simp] theorem updSeq_station (s : State) (c : Chan) (f : Sequencer → Sequencer) :
    (s.updSeq c f).station = s.station := rfl

@[simp] theorem updSeq_seqTable (s : State) (c : Chan) (f : Sequencer → Sequencer) :
    (s.updSeq c f).seqTable = s.seqTable := rfl

@[simp] theorem updSeq_rfq (s : State) (c : Chan) (f : Sequencer → Sequencer) :
    (s.updSeq c f).rfq = s.rfq := rfl

@[simp] theorem updSeq_arrival (s : State) (c : Chan) (f : Sequencer → Sequencer) :
    (s.updSeq c f).arrival = s.arrival := rfl

@[simp] theorem updSeq_tcq (s : State) (c : Chan) (f : Sequencer → Sequencer) :
    (s.updSeq c f).tcq = s.tcq := rfl

@[simp] theorem updSeq_lastTcq (s : State) (c : Chan) (f : Sequencer → Sequencer) :
    (s.updSeq c f).lastTcq = s.lastTcq := rfl

@[simp] theorem updSeq_pool (s : State) (c : Chan) (f : Sequencer → Sequencer) :
    (s.updSeq c f).pool = s.pool := rfl

@[simp] theorem updSeq_holdLevel (s : State) (c : Chan) (f : Sequencer → Sequencer) :
    (s.updSeq c f).holdLevel = s.holdLevel := rfl

@[simp] theorem updSeq_resumeLevel (s : State) (c : Chan) (f : Sequencer → Sequencer) :
    (s.updSeq c f).resumeLevel = s.resumeLevel := rfl

@[simp] theorem updSeq_holdTime (s : State) (c : Chan) (f : Sequencer → Sequencer) :
    (s.updSeq c f).holdTime = s.holdTime := rfl

/-! ### setLine -/

@[simp] theorem setLine_pending (s : State) (c : Chan) (l : LineTx) :
    (s.setLine c l).pending = s.pending := rfl

@[simp] theorem setLine_resetLow (s : State) (c : Chan) (l : LineTx) :
    (s.setLine c l).resetLow = s.resetLow := rfl

@[simp] theorem setLine_resetIn (s : State) (c : Chan) (l : LineTx) :
    (s.setLine c l).resetIn = s.resetIn := rfl

@[simp] theorem setLine_rxdIn (s : State) (c : Chan) (l : LineTx) :
    (s.setLine c l).rxdIn = s.rxdIn := rfl

@[simp] theorem setLine_dOut (s : State) (c : Chan) (l : LineTx) :
    (s.setLine c l).dOut = s.dOut := rfl

@[simp] theorem setLine_arg (s : State) (c : Chan) (l : LineTx) :
    (s.setLine c l).arg = s.arg := rfl

@[simp] theorem setLine_res (s : State) (c : Chan) (l : LineTx) :
    (s.setLine c l).res = s.res := rfl

@[simp] theorem setLine_cmdStatus (s : State) (c : Chan) (l : LineTx) :
    (s.setLine c l).cmdStatus = s.cmdStatus := rfl

@[simp] theorem setLine_busy (s : State) (c : Chan) (l : LineTx) :
    (s.setLine c l).busy = s.busy := rfl

@[simp] theorem setLine_event (s : State) (c : Chan) (l : LineTx) :
    (s.setLine c l).event = s.event := rfl

@[simp] theorem setLine_eventEn (s : State) (c : Chan) (l : LineTx) :
    (s.setLine c l).eventEn = s.eventEn := rfl

@[simp] theorem setLine_condEn (s : State) (c : Chan) (l : LineTx) :
    (s.setLine c l).condEn = s.condEn := rfl

@[simp] theorem setLine_snapEvent (s : State) (c : Chan) (l : LineTx) :
    (s.setLine c l).snapEvent = s.snapEvent := rfl

@[simp] theorem setLine_snapEventEn (s : State) (c : Chan) (l : LineTx) :
    (s.setLine c l).snapEventEn = s.snapEventEn := rfl

@[simp] theorem setLine_snapFree (s : State) (c : Chan) (l : LineTx) :
    (s.setLine c l).snapFree = s.snapFree := rfl

@[simp] theorem setLine_snapDiv (s : State) (c : Chan) (l : LineTx) :
    (s.setLine c l).snapDiv = s.snapDiv := rfl

@[simp] theorem setLine_snapSpacing (s : State) (c : Chan) (l : LineTx) :
    (s.setLine c l).snapSpacing = s.snapSpacing := rfl

@[simp] theorem setLine_chsel (s : State) (c : Chan) (l : LineTx) :
    (s.setLine c l).chsel = s.chsel := rfl

@[simp] theorem setLine_mem (s : State) (c : Chan) (l : LineTx) :
    (s.setLine c l).mem = s.mem := rfl

@[simp] theorem setLine_pageTable (s : State) (c : Chan) (l : LineTx) :
    (s.setLine c l).pageTable = s.pageTable := rfl

@[simp] theorem setLine_freeList (s : State) (c : Chan) (l : LineTx) :
    (s.setLine c l).freeList = s.freeList := rfl

@[simp] theorem setLine_reserve (s : State) (c : Chan) (l : LineTx) :
    (s.setLine c l).reserve = s.reserve := rfl

@[simp] theorem setLine_lastRx (s : State) (c : Chan) (l : LineTx) :
    (s.setLine c l).lastRx = s.lastRx := rfl

@[simp] theorem setLine_port (s : State) (c : Chan) (l : LineTx) :
    (s.setLine c l).port = s.port := rfl

@[simp] theorem setLine_station (s : State) (c : Chan) (l : LineTx) :
    (s.setLine c l).station = s.station := rfl

@[simp] theorem setLine_seqTable (s : State) (c : Chan) (l : LineTx) :
    (s.setLine c l).seqTable = s.seqTable := rfl

@[simp] theorem setLine_rfq (s : State) (c : Chan) (l : LineTx) :
    (s.setLine c l).rfq = s.rfq := rfl

@[simp] theorem setLine_arrival (s : State) (c : Chan) (l : LineTx) :
    (s.setLine c l).arrival = s.arrival := rfl

@[simp] theorem setLine_tcq (s : State) (c : Chan) (l : LineTx) :
    (s.setLine c l).tcq = s.tcq := rfl

@[simp] theorem setLine_lastTcq (s : State) (c : Chan) (l : LineTx) :
    (s.setLine c l).lastTcq = s.lastTcq := rfl

@[simp] theorem setLine_pool (s : State) (c : Chan) (l : LineTx) :
    (s.setLine c l).pool = s.pool := rfl

@[simp] theorem setLine_holdLevel (s : State) (c : Chan) (l : LineTx) :
    (s.setLine c l).holdLevel = s.holdLevel := rfl

@[simp] theorem setLine_resumeLevel (s : State) (c : Chan) (l : LineTx) :
    (s.setLine c l).resumeLevel = s.resumeLevel := rfl

@[simp] theorem setLine_holdTime (s : State) (c : Chan) (l : LineTx) :
    (s.setLine c l).holdTime = s.holdTime := rfl

/-! ### endFrame -/

@[simp] theorem endFrame_pending (s : State) (c : Chan) (p : Parser) :
    (s.endFrame c p).pending = s.pending := rfl

@[simp] theorem endFrame_resetLow (s : State) (c : Chan) (p : Parser) :
    (s.endFrame c p).resetLow = s.resetLow := rfl

@[simp] theorem endFrame_resetIn (s : State) (c : Chan) (p : Parser) :
    (s.endFrame c p).resetIn = s.resetIn := rfl

@[simp] theorem endFrame_rxdIn (s : State) (c : Chan) (p : Parser) :
    (s.endFrame c p).rxdIn = s.rxdIn := rfl

@[simp] theorem endFrame_dOut (s : State) (c : Chan) (p : Parser) :
    (s.endFrame c p).dOut = s.dOut := rfl

@[simp] theorem endFrame_arg (s : State) (c : Chan) (p : Parser) :
    (s.endFrame c p).arg = s.arg := rfl

@[simp] theorem endFrame_res (s : State) (c : Chan) (p : Parser) :
    (s.endFrame c p).res = s.res := rfl

@[simp] theorem endFrame_cmdStatus (s : State) (c : Chan) (p : Parser) :
    (s.endFrame c p).cmdStatus = s.cmdStatus := rfl

@[simp] theorem endFrame_busy (s : State) (c : Chan) (p : Parser) :
    (s.endFrame c p).busy = s.busy := rfl

@[simp] theorem endFrame_event (s : State) (c : Chan) (p : Parser) :
    (s.endFrame c p).event = s.event := rfl

@[simp] theorem endFrame_eventEn (s : State) (c : Chan) (p : Parser) :
    (s.endFrame c p).eventEn = s.eventEn := rfl

@[simp] theorem endFrame_condEn (s : State) (c : Chan) (p : Parser) :
    (s.endFrame c p).condEn = s.condEn := rfl

@[simp] theorem endFrame_snapEvent (s : State) (c : Chan) (p : Parser) :
    (s.endFrame c p).snapEvent = s.snapEvent := rfl

@[simp] theorem endFrame_snapEventEn (s : State) (c : Chan) (p : Parser) :
    (s.endFrame c p).snapEventEn = s.snapEventEn := rfl

@[simp] theorem endFrame_snapFree (s : State) (c : Chan) (p : Parser) :
    (s.endFrame c p).snapFree = s.snapFree := rfl

@[simp] theorem endFrame_snapDiv (s : State) (c : Chan) (p : Parser) :
    (s.endFrame c p).snapDiv = s.snapDiv := rfl

@[simp] theorem endFrame_snapSpacing (s : State) (c : Chan) (p : Parser) :
    (s.endFrame c p).snapSpacing = s.snapSpacing := rfl

@[simp] theorem endFrame_chsel (s : State) (c : Chan) (p : Parser) :
    (s.endFrame c p).chsel = s.chsel := rfl

@[simp] theorem endFrame_mem (s : State) (c : Chan) (p : Parser) :
    (s.endFrame c p).mem = s.mem := rfl

@[simp] theorem endFrame_pageTable (s : State) (c : Chan) (p : Parser) :
    (s.endFrame c p).pageTable = s.pageTable := rfl

@[simp] theorem endFrame_freeList (s : State) (c : Chan) (p : Parser) :
    (s.endFrame c p).freeList = s.freeList := rfl

@[simp] theorem endFrame_reserve (s : State) (c : Chan) (p : Parser) :
    (s.endFrame c p).reserve = s.reserve := rfl

@[simp] theorem endFrame_lastRx (s : State) (c : Chan) (p : Parser) :
    (s.endFrame c p).lastRx = s.lastRx := rfl

@[simp] theorem endFrame_port (s : State) (c : Chan) (p : Parser) :
    (s.endFrame c p).port = s.port := rfl

@[simp] theorem endFrame_station (s : State) (c : Chan) (p : Parser) :
    (s.endFrame c p).station = s.station := rfl

@[simp] theorem endFrame_seqTable (s : State) (c : Chan) (p : Parser) :
    (s.endFrame c p).seqTable = s.seqTable := rfl

@[simp] theorem endFrame_rfq (s : State) (c : Chan) (p : Parser) :
    (s.endFrame c p).rfq = s.rfq := rfl

@[simp] theorem endFrame_arrival (s : State) (c : Chan) (p : Parser) :
    (s.endFrame c p).arrival = s.arrival := rfl

@[simp] theorem endFrame_tcq (s : State) (c : Chan) (p : Parser) :
    (s.endFrame c p).tcq = s.tcq := rfl

@[simp] theorem endFrame_lastTcq (s : State) (c : Chan) (p : Parser) :
    (s.endFrame c p).lastTcq = s.lastTcq := rfl

@[simp] theorem endFrame_pool (s : State) (c : Chan) (p : Parser) :
    (s.endFrame c p).pool = s.pool := rfl

@[simp] theorem endFrame_holdLevel (s : State) (c : Chan) (p : Parser) :
    (s.endFrame c p).holdLevel = s.holdLevel := rfl

@[simp] theorem endFrame_resumeLevel (s : State) (c : Chan) (p : Parser) :
    (s.endFrame c p).resumeLevel = s.resumeLevel := rfl

@[simp] theorem endFrame_holdTime (s : State) (c : Chan) (p : Parser) :
    (s.endFrame c p).holdTime = s.holdTime := rfl

/-! ### setOwner -/

@[simp] theorem setOwner_pending (s : State) (h : Page) (o : Owner) :
    (s.setOwner h o).pending = s.pending := rfl

@[simp] theorem setOwner_resetLow (s : State) (h : Page) (o : Owner) :
    (s.setOwner h o).resetLow = s.resetLow := rfl

@[simp] theorem setOwner_resetIn (s : State) (h : Page) (o : Owner) :
    (s.setOwner h o).resetIn = s.resetIn := rfl

@[simp] theorem setOwner_rxdIn (s : State) (h : Page) (o : Owner) :
    (s.setOwner h o).rxdIn = s.rxdIn := rfl

@[simp] theorem setOwner_dOut (s : State) (h : Page) (o : Owner) :
    (s.setOwner h o).dOut = s.dOut := rfl

@[simp] theorem setOwner_arg (s : State) (h : Page) (o : Owner) :
    (s.setOwner h o).arg = s.arg := rfl

@[simp] theorem setOwner_res (s : State) (h : Page) (o : Owner) :
    (s.setOwner h o).res = s.res := rfl

@[simp] theorem setOwner_cmdStatus (s : State) (h : Page) (o : Owner) :
    (s.setOwner h o).cmdStatus = s.cmdStatus := rfl

@[simp] theorem setOwner_busy (s : State) (h : Page) (o : Owner) :
    (s.setOwner h o).busy = s.busy := rfl

@[simp] theorem setOwner_event (s : State) (h : Page) (o : Owner) :
    (s.setOwner h o).event = s.event := rfl

@[simp] theorem setOwner_eventEn (s : State) (h : Page) (o : Owner) :
    (s.setOwner h o).eventEn = s.eventEn := rfl

@[simp] theorem setOwner_condEn (s : State) (h : Page) (o : Owner) :
    (s.setOwner h o).condEn = s.condEn := rfl

@[simp] theorem setOwner_snapEvent (s : State) (h : Page) (o : Owner) :
    (s.setOwner h o).snapEvent = s.snapEvent := rfl

@[simp] theorem setOwner_snapEventEn (s : State) (h : Page) (o : Owner) :
    (s.setOwner h o).snapEventEn = s.snapEventEn := rfl

@[simp] theorem setOwner_snapFree (s : State) (h : Page) (o : Owner) :
    (s.setOwner h o).snapFree = s.snapFree := rfl

@[simp] theorem setOwner_snapDiv (s : State) (h : Page) (o : Owner) :
    (s.setOwner h o).snapDiv = s.snapDiv := rfl

@[simp] theorem setOwner_snapSpacing (s : State) (h : Page) (o : Owner) :
    (s.setOwner h o).snapSpacing = s.snapSpacing := rfl

@[simp] theorem setOwner_chsel (s : State) (h : Page) (o : Owner) :
    (s.setOwner h o).chsel = s.chsel := rfl

@[simp] theorem setOwner_mem (s : State) (h : Page) (o : Owner) :
    (s.setOwner h o).mem = s.mem := rfl

@[simp] theorem setOwner_pageTable (s : State) (h : Page) (o : Owner) :
    (s.setOwner h o).pageTable = s.pageTable.own o (s.chainPages h) := rfl

@[simp] theorem setOwner_freeList (s : State) (h : Page) (o : Owner) :
    (s.setOwner h o).freeList = s.freeList := rfl

@[simp] theorem setOwner_reserve (s : State) (h : Page) (o : Owner) :
    (s.setOwner h o).reserve = s.reserve := rfl

@[simp] theorem setOwner_lastRx (s : State) (h : Page) (o : Owner) :
    (s.setOwner h o).lastRx = s.lastRx := rfl

@[simp] theorem setOwner_port (s : State) (h : Page) (o : Owner) :
    (s.setOwner h o).port = s.port := rfl

@[simp] theorem setOwner_station (s : State) (h : Page) (o : Owner) :
    (s.setOwner h o).station = s.station := rfl

@[simp] theorem setOwner_seqTable (s : State) (h : Page) (o : Owner) :
    (s.setOwner h o).seqTable = s.seqTable := rfl

@[simp] theorem setOwner_rfq (s : State) (h : Page) (o : Owner) :
    (s.setOwner h o).rfq = s.rfq := rfl

@[simp] theorem setOwner_arrival (s : State) (h : Page) (o : Owner) :
    (s.setOwner h o).arrival = s.arrival := rfl

@[simp] theorem setOwner_tcq (s : State) (h : Page) (o : Owner) :
    (s.setOwner h o).tcq = s.tcq := rfl

@[simp] theorem setOwner_lastTcq (s : State) (h : Page) (o : Owner) :
    (s.setOwner h o).lastTcq = s.lastTcq := rfl

@[simp] theorem setOwner_pool (s : State) (h : Page) (o : Owner) :
    (s.setOwner h o).pool = s.pool := rfl

@[simp] theorem setOwner_holdLevel (s : State) (h : Page) (o : Owner) :
    (s.setOwner h o).holdLevel = s.holdLevel := rfl

@[simp] theorem setOwner_resumeLevel (s : State) (h : Page) (o : Owner) :
    (s.setOwner h o).resumeLevel = s.resumeLevel := rfl

@[simp] theorem setOwner_holdTime (s : State) (h : Page) (o : Owner) :
    (s.setOwner h o).holdTime = s.holdTime := rfl

@[simp] theorem setOwner_chans (s : State) (h : Page) (o : Owner) :
    (s.setOwner h o).chans = s.chans := rfl

/-! ### done -/

@[simp] theorem done_pending (s : State) (k : StatusCode) :
    (s.done k).pending = s.pending := rfl

@[simp] theorem done_resetLow (s : State) (k : StatusCode) :
    (s.done k).resetLow = s.resetLow := rfl

@[simp] theorem done_resetIn (s : State) (k : StatusCode) :
    (s.done k).resetIn = s.resetIn := rfl

@[simp] theorem done_rxdIn (s : State) (k : StatusCode) :
    (s.done k).rxdIn = s.rxdIn := rfl

@[simp] theorem done_dOut (s : State) (k : StatusCode) :
    (s.done k).dOut = s.dOut := rfl

@[simp] theorem done_arg (s : State) (k : StatusCode) :
    (s.done k).arg = s.arg := rfl

@[simp] theorem done_res (s : State) (k : StatusCode) :
    (s.done k).res = s.res := rfl

@[simp] theorem done_cmdStatus (s : State) (k : StatusCode) :
    (s.done k).cmdStatus = k := rfl

@[simp] theorem done_busy (s : State) (k : StatusCode) :
    (s.done k).busy = s.busy := rfl

@[simp] theorem done_event (s : State) (k : StatusCode) :
    (s.done k).event = s.event ||| Event.cmdDone.mask := rfl

@[simp] theorem done_eventEn (s : State) (k : StatusCode) :
    (s.done k).eventEn = s.eventEn := rfl

@[simp] theorem done_condEn (s : State) (k : StatusCode) :
    (s.done k).condEn = s.condEn := rfl

@[simp] theorem done_snapEvent (s : State) (k : StatusCode) :
    (s.done k).snapEvent = s.snapEvent := rfl

@[simp] theorem done_snapEventEn (s : State) (k : StatusCode) :
    (s.done k).snapEventEn = s.snapEventEn := rfl

@[simp] theorem done_snapFree (s : State) (k : StatusCode) :
    (s.done k).snapFree = s.snapFree := rfl

@[simp] theorem done_snapDiv (s : State) (k : StatusCode) :
    (s.done k).snapDiv = s.snapDiv := rfl

@[simp] theorem done_snapSpacing (s : State) (k : StatusCode) :
    (s.done k).snapSpacing = s.snapSpacing := rfl

@[simp] theorem done_chsel (s : State) (k : StatusCode) :
    (s.done k).chsel = s.chsel := rfl

@[simp] theorem done_mem (s : State) (k : StatusCode) :
    (s.done k).mem = s.mem := rfl

@[simp] theorem done_pageTable (s : State) (k : StatusCode) :
    (s.done k).pageTable = s.pageTable := rfl

@[simp] theorem done_freeList (s : State) (k : StatusCode) :
    (s.done k).freeList = s.freeList := rfl

@[simp] theorem done_reserve (s : State) (k : StatusCode) :
    (s.done k).reserve = s.reserve := rfl

@[simp] theorem done_lastRx (s : State) (k : StatusCode) :
    (s.done k).lastRx = s.lastRx := rfl

@[simp] theorem done_port (s : State) (k : StatusCode) :
    (s.done k).port = s.port := rfl

@[simp] theorem done_station (s : State) (k : StatusCode) :
    (s.done k).station = s.station := rfl

@[simp] theorem done_seqTable (s : State) (k : StatusCode) :
    (s.done k).seqTable = s.seqTable := rfl

@[simp] theorem done_rfq (s : State) (k : StatusCode) :
    (s.done k).rfq = s.rfq := rfl

@[simp] theorem done_arrival (s : State) (k : StatusCode) :
    (s.done k).arrival = s.arrival := rfl

@[simp] theorem done_tcq (s : State) (k : StatusCode) :
    (s.done k).tcq = s.tcq := rfl

@[simp] theorem done_lastTcq (s : State) (k : StatusCode) :
    (s.done k).lastTcq = s.lastTcq := rfl

@[simp] theorem done_pool (s : State) (k : StatusCode) :
    (s.done k).pool = s.pool := rfl

@[simp] theorem done_holdLevel (s : State) (k : StatusCode) :
    (s.done k).holdLevel = s.holdLevel := rfl

@[simp] theorem done_resumeLevel (s : State) (k : StatusCode) :
    (s.done k).resumeLevel = s.resumeLevel := rfl

@[simp] theorem done_holdTime (s : State) (k : StatusCode) :
    (s.done k).holdTime = s.holdTime := rfl

@[simp] theorem done_chans (s : State) (k : StatusCode) :
    (s.done k).chans = s.chans := rfl

/-! ### setRes -/

@[simp] theorem setRes_pending (s : State) (i : Fin 8) (v : Byte) :
    (s.setRes i v).pending = s.pending := rfl

@[simp] theorem setRes_resetLow (s : State) (i : Fin 8) (v : Byte) :
    (s.setRes i v).resetLow = s.resetLow := rfl

@[simp] theorem setRes_resetIn (s : State) (i : Fin 8) (v : Byte) :
    (s.setRes i v).resetIn = s.resetIn := rfl

@[simp] theorem setRes_rxdIn (s : State) (i : Fin 8) (v : Byte) :
    (s.setRes i v).rxdIn = s.rxdIn := rfl

@[simp] theorem setRes_dOut (s : State) (i : Fin 8) (v : Byte) :
    (s.setRes i v).dOut = s.dOut := rfl

@[simp] theorem setRes_arg (s : State) (i : Fin 8) (v : Byte) :
    (s.setRes i v).arg = s.arg := rfl

@[simp] theorem setRes_res (s : State) (i : Fin 8) (v : Byte) :
    (s.setRes i v).res = s.res.set i v := rfl

@[simp] theorem setRes_cmdStatus (s : State) (i : Fin 8) (v : Byte) :
    (s.setRes i v).cmdStatus = s.cmdStatus := rfl

@[simp] theorem setRes_busy (s : State) (i : Fin 8) (v : Byte) :
    (s.setRes i v).busy = s.busy := rfl

@[simp] theorem setRes_event (s : State) (i : Fin 8) (v : Byte) :
    (s.setRes i v).event = s.event := rfl

@[simp] theorem setRes_eventEn (s : State) (i : Fin 8) (v : Byte) :
    (s.setRes i v).eventEn = s.eventEn := rfl

@[simp] theorem setRes_condEn (s : State) (i : Fin 8) (v : Byte) :
    (s.setRes i v).condEn = s.condEn := rfl

@[simp] theorem setRes_snapEvent (s : State) (i : Fin 8) (v : Byte) :
    (s.setRes i v).snapEvent = s.snapEvent := rfl

@[simp] theorem setRes_snapEventEn (s : State) (i : Fin 8) (v : Byte) :
    (s.setRes i v).snapEventEn = s.snapEventEn := rfl

@[simp] theorem setRes_snapFree (s : State) (i : Fin 8) (v : Byte) :
    (s.setRes i v).snapFree = s.snapFree := rfl

@[simp] theorem setRes_snapDiv (s : State) (i : Fin 8) (v : Byte) :
    (s.setRes i v).snapDiv = s.snapDiv := rfl

@[simp] theorem setRes_snapSpacing (s : State) (i : Fin 8) (v : Byte) :
    (s.setRes i v).snapSpacing = s.snapSpacing := rfl

@[simp] theorem setRes_chsel (s : State) (i : Fin 8) (v : Byte) :
    (s.setRes i v).chsel = s.chsel := rfl

@[simp] theorem setRes_mem (s : State) (i : Fin 8) (v : Byte) :
    (s.setRes i v).mem = s.mem := rfl

@[simp] theorem setRes_pageTable (s : State) (i : Fin 8) (v : Byte) :
    (s.setRes i v).pageTable = s.pageTable := rfl

@[simp] theorem setRes_freeList (s : State) (i : Fin 8) (v : Byte) :
    (s.setRes i v).freeList = s.freeList := rfl

@[simp] theorem setRes_reserve (s : State) (i : Fin 8) (v : Byte) :
    (s.setRes i v).reserve = s.reserve := rfl

@[simp] theorem setRes_lastRx (s : State) (i : Fin 8) (v : Byte) :
    (s.setRes i v).lastRx = s.lastRx := rfl

@[simp] theorem setRes_port (s : State) (i : Fin 8) (v : Byte) :
    (s.setRes i v).port = s.port := rfl

@[simp] theorem setRes_station (s : State) (i : Fin 8) (v : Byte) :
    (s.setRes i v).station = s.station := rfl

@[simp] theorem setRes_seqTable (s : State) (i : Fin 8) (v : Byte) :
    (s.setRes i v).seqTable = s.seqTable := rfl

@[simp] theorem setRes_rfq (s : State) (i : Fin 8) (v : Byte) :
    (s.setRes i v).rfq = s.rfq := rfl

@[simp] theorem setRes_arrival (s : State) (i : Fin 8) (v : Byte) :
    (s.setRes i v).arrival = s.arrival := rfl

@[simp] theorem setRes_tcq (s : State) (i : Fin 8) (v : Byte) :
    (s.setRes i v).tcq = s.tcq := rfl

@[simp] theorem setRes_lastTcq (s : State) (i : Fin 8) (v : Byte) :
    (s.setRes i v).lastTcq = s.lastTcq := rfl

@[simp] theorem setRes_pool (s : State) (i : Fin 8) (v : Byte) :
    (s.setRes i v).pool = s.pool := rfl

@[simp] theorem setRes_holdLevel (s : State) (i : Fin 8) (v : Byte) :
    (s.setRes i v).holdLevel = s.holdLevel := rfl

@[simp] theorem setRes_resumeLevel (s : State) (i : Fin 8) (v : Byte) :
    (s.setRes i v).resumeLevel = s.resumeLevel := rfl

@[simp] theorem setRes_holdTime (s : State) (i : Fin 8) (v : Byte) :
    (s.setRes i v).holdTime = s.holdTime := rfl

@[simp] theorem setRes_chans (s : State) (i : Fin 8) (v : Byte) :
    (s.setRes i v).chans = s.chans := rfl

/-! ### attach -/

@[simp] theorem attach_pending (s : State) (h : Page) (off : Byte) :
    (s.attach h off).pending = s.pending := rfl

@[simp] theorem attach_resetLow (s : State) (h : Page) (off : Byte) :
    (s.attach h off).resetLow = s.resetLow := rfl

@[simp] theorem attach_resetIn (s : State) (h : Page) (off : Byte) :
    (s.attach h off).resetIn = s.resetIn := rfl

@[simp] theorem attach_rxdIn (s : State) (h : Page) (off : Byte) :
    (s.attach h off).rxdIn = s.rxdIn := rfl

@[simp] theorem attach_dOut (s : State) (h : Page) (off : Byte) :
    (s.attach h off).dOut = s.dOut := rfl

@[simp] theorem attach_arg (s : State) (h : Page) (off : Byte) :
    (s.attach h off).arg = s.arg := rfl

@[simp] theorem attach_res (s : State) (h : Page) (off : Byte) :
    (s.attach h off).res = s.res := rfl

@[simp] theorem attach_cmdStatus (s : State) (h : Page) (off : Byte) :
    (s.attach h off).cmdStatus = s.cmdStatus := rfl

@[simp] theorem attach_busy (s : State) (h : Page) (off : Byte) :
    (s.attach h off).busy = s.busy := rfl

@[simp] theorem attach_event (s : State) (h : Page) (off : Byte) :
    (s.attach h off).event = s.event := rfl

@[simp] theorem attach_eventEn (s : State) (h : Page) (off : Byte) :
    (s.attach h off).eventEn = s.eventEn := rfl

@[simp] theorem attach_condEn (s : State) (h : Page) (off : Byte) :
    (s.attach h off).condEn = s.condEn := rfl

@[simp] theorem attach_snapEvent (s : State) (h : Page) (off : Byte) :
    (s.attach h off).snapEvent = s.snapEvent := rfl

@[simp] theorem attach_snapEventEn (s : State) (h : Page) (off : Byte) :
    (s.attach h off).snapEventEn = s.snapEventEn := rfl

@[simp] theorem attach_snapFree (s : State) (h : Page) (off : Byte) :
    (s.attach h off).snapFree = s.snapFree := rfl

@[simp] theorem attach_snapDiv (s : State) (h : Page) (off : Byte) :
    (s.attach h off).snapDiv = s.snapDiv := rfl

@[simp] theorem attach_snapSpacing (s : State) (h : Page) (off : Byte) :
    (s.attach h off).snapSpacing = s.snapSpacing := rfl

@[simp] theorem attach_chsel (s : State) (h : Page) (off : Byte) :
    (s.attach h off).chsel = s.chsel := rfl

@[simp] theorem attach_mem (s : State) (h : Page) (off : Byte) :
    (s.attach h off).mem = s.mem := rfl

@[simp] theorem attach_pageTable (s : State) (h : Page) (off : Byte) :
    (s.attach h off).pageTable = s.pageTable := rfl

@[simp] theorem attach_freeList (s : State) (h : Page) (off : Byte) :
    (s.attach h off).freeList = s.freeList := rfl

@[simp] theorem attach_reserve (s : State) (h : Page) (off : Byte) :
    (s.attach h off).reserve = s.reserve := rfl

@[simp] theorem attach_lastRx (s : State) (h : Page) (off : Byte) :
    (s.attach h off).lastRx = s.lastRx := rfl

@[simp] theorem attach_port (s : State) (h : Page) (off : Byte) :
    (s.attach h off).port = ⟨.attached, h, off⟩ := rfl

@[simp] theorem attach_station (s : State) (h : Page) (off : Byte) :
    (s.attach h off).station = s.station := rfl

@[simp] theorem attach_seqTable (s : State) (h : Page) (off : Byte) :
    (s.attach h off).seqTable = s.seqTable := rfl

@[simp] theorem attach_rfq (s : State) (h : Page) (off : Byte) :
    (s.attach h off).rfq = s.rfq := rfl

@[simp] theorem attach_arrival (s : State) (h : Page) (off : Byte) :
    (s.attach h off).arrival = s.arrival := rfl

@[simp] theorem attach_tcq (s : State) (h : Page) (off : Byte) :
    (s.attach h off).tcq = s.tcq := rfl

@[simp] theorem attach_lastTcq (s : State) (h : Page) (off : Byte) :
    (s.attach h off).lastTcq = s.lastTcq := rfl

@[simp] theorem attach_pool (s : State) (h : Page) (off : Byte) :
    (s.attach h off).pool = s.pool := rfl

@[simp] theorem attach_holdLevel (s : State) (h : Page) (off : Byte) :
    (s.attach h off).holdLevel = s.holdLevel := rfl

@[simp] theorem attach_resumeLevel (s : State) (h : Page) (off : Byte) :
    (s.attach h off).resumeLevel = s.resumeLevel := rfl

@[simp] theorem attach_holdTime (s : State) (h : Page) (off : Byte) :
    (s.attach h off).holdTime = s.holdTime := rfl

@[simp] theorem attach_chans (s : State) (h : Page) (off : Byte) :
    (s.attach h off).chans = s.chans := rfl

/-! ### recordSeq -/

@[simp] theorem recordSeq_pending (s : State) (c : Chan) (src : Byte) (q : BitVec 3) :
    (s.recordSeq c src q).pending = s.pending := rfl

@[simp] theorem recordSeq_resetLow (s : State) (c : Chan) (src : Byte) (q : BitVec 3) :
    (s.recordSeq c src q).resetLow = s.resetLow := rfl

@[simp] theorem recordSeq_resetIn (s : State) (c : Chan) (src : Byte) (q : BitVec 3) :
    (s.recordSeq c src q).resetIn = s.resetIn := rfl

@[simp] theorem recordSeq_rxdIn (s : State) (c : Chan) (src : Byte) (q : BitVec 3) :
    (s.recordSeq c src q).rxdIn = s.rxdIn := rfl

@[simp] theorem recordSeq_dOut (s : State) (c : Chan) (src : Byte) (q : BitVec 3) :
    (s.recordSeq c src q).dOut = s.dOut := rfl

@[simp] theorem recordSeq_arg (s : State) (c : Chan) (src : Byte) (q : BitVec 3) :
    (s.recordSeq c src q).arg = s.arg := rfl

@[simp] theorem recordSeq_res (s : State) (c : Chan) (src : Byte) (q : BitVec 3) :
    (s.recordSeq c src q).res = s.res := rfl

@[simp] theorem recordSeq_cmdStatus (s : State) (c : Chan) (src : Byte) (q : BitVec 3) :
    (s.recordSeq c src q).cmdStatus = s.cmdStatus := rfl

@[simp] theorem recordSeq_busy (s : State) (c : Chan) (src : Byte) (q : BitVec 3) :
    (s.recordSeq c src q).busy = s.busy := rfl

@[simp] theorem recordSeq_event (s : State) (c : Chan) (src : Byte) (q : BitVec 3) :
    (s.recordSeq c src q).event = s.event := rfl

@[simp] theorem recordSeq_eventEn (s : State) (c : Chan) (src : Byte) (q : BitVec 3) :
    (s.recordSeq c src q).eventEn = s.eventEn := rfl

@[simp] theorem recordSeq_condEn (s : State) (c : Chan) (src : Byte) (q : BitVec 3) :
    (s.recordSeq c src q).condEn = s.condEn := rfl

@[simp] theorem recordSeq_snapEvent (s : State) (c : Chan) (src : Byte) (q : BitVec 3) :
    (s.recordSeq c src q).snapEvent = s.snapEvent := rfl

@[simp] theorem recordSeq_snapEventEn (s : State) (c : Chan) (src : Byte) (q : BitVec 3) :
    (s.recordSeq c src q).snapEventEn = s.snapEventEn := rfl

@[simp] theorem recordSeq_snapFree (s : State) (c : Chan) (src : Byte) (q : BitVec 3) :
    (s.recordSeq c src q).snapFree = s.snapFree := rfl

@[simp] theorem recordSeq_snapDiv (s : State) (c : Chan) (src : Byte) (q : BitVec 3) :
    (s.recordSeq c src q).snapDiv = s.snapDiv := rfl

@[simp] theorem recordSeq_snapSpacing (s : State) (c : Chan) (src : Byte) (q : BitVec 3) :
    (s.recordSeq c src q).snapSpacing = s.snapSpacing := rfl

@[simp] theorem recordSeq_chsel (s : State) (c : Chan) (src : Byte) (q : BitVec 3) :
    (s.recordSeq c src q).chsel = s.chsel := rfl

@[simp] theorem recordSeq_mem (s : State) (c : Chan) (src : Byte) (q : BitVec 3) :
    (s.recordSeq c src q).mem = s.mem := rfl

@[simp] theorem recordSeq_pageTable (s : State) (c : Chan) (src : Byte) (q : BitVec 3) :
    (s.recordSeq c src q).pageTable = s.pageTable := rfl

@[simp] theorem recordSeq_freeList (s : State) (c : Chan) (src : Byte) (q : BitVec 3) :
    (s.recordSeq c src q).freeList = s.freeList := rfl

@[simp] theorem recordSeq_reserve (s : State) (c : Chan) (src : Byte) (q : BitVec 3) :
    (s.recordSeq c src q).reserve = s.reserve := rfl

@[simp] theorem recordSeq_lastRx (s : State) (c : Chan) (src : Byte) (q : BitVec 3) :
    (s.recordSeq c src q).lastRx = s.lastRx := rfl

@[simp] theorem recordSeq_port (s : State) (c : Chan) (src : Byte) (q : BitVec 3) :
    (s.recordSeq c src q).port = s.port := rfl

@[simp] theorem recordSeq_station (s : State) (c : Chan) (src : Byte) (q : BitVec 3) :
    (s.recordSeq c src q).station = s.station := rfl

@[simp] theorem recordSeq_seqTable (s : State) (c : Chan) (src : Byte) (q : BitVec 3) :
    (s.recordSeq c src q).seqTable = seqRecord s.seqTable c src q := rfl

@[simp] theorem recordSeq_rfq (s : State) (c : Chan) (src : Byte) (q : BitVec 3) :
    (s.recordSeq c src q).rfq = s.rfq := rfl

@[simp] theorem recordSeq_arrival (s : State) (c : Chan) (src : Byte) (q : BitVec 3) :
    (s.recordSeq c src q).arrival = s.arrival := rfl

@[simp] theorem recordSeq_tcq (s : State) (c : Chan) (src : Byte) (q : BitVec 3) :
    (s.recordSeq c src q).tcq = s.tcq := rfl

@[simp] theorem recordSeq_lastTcq (s : State) (c : Chan) (src : Byte) (q : BitVec 3) :
    (s.recordSeq c src q).lastTcq = s.lastTcq := rfl

@[simp] theorem recordSeq_pool (s : State) (c : Chan) (src : Byte) (q : BitVec 3) :
    (s.recordSeq c src q).pool = s.pool := rfl

@[simp] theorem recordSeq_holdLevel (s : State) (c : Chan) (src : Byte) (q : BitVec 3) :
    (s.recordSeq c src q).holdLevel = s.holdLevel := rfl

@[simp] theorem recordSeq_resumeLevel (s : State) (c : Chan) (src : Byte) (q : BitVec 3) :
    (s.recordSeq c src q).resumeLevel = s.resumeLevel := rfl

@[simp] theorem recordSeq_holdTime (s : State) (c : Chan) (src : Byte) (q : BitVec 3) :
    (s.recordSeq c src q).holdTime = s.holdTime := rfl

@[simp] theorem recordSeq_chans (s : State) (c : Chan) (src : Byte) (q : BitVec 3) :
    (s.recordSeq c src q).chans = s.chans := rfl

/-! ### eventClear -/

@[simp] theorem eventClear_pending (s : State) (high : Bool) (v : Byte) :
    (s.eventClear high v).pending = s.pending := rfl

@[simp] theorem eventClear_resetLow (s : State) (high : Bool) (v : Byte) :
    (s.eventClear high v).resetLow = s.resetLow := rfl

@[simp] theorem eventClear_resetIn (s : State) (high : Bool) (v : Byte) :
    (s.eventClear high v).resetIn = s.resetIn := rfl

@[simp] theorem eventClear_rxdIn (s : State) (high : Bool) (v : Byte) :
    (s.eventClear high v).rxdIn = s.rxdIn := rfl

@[simp] theorem eventClear_dOut (s : State) (high : Bool) (v : Byte) :
    (s.eventClear high v).dOut = s.dOut := rfl

@[simp] theorem eventClear_arg (s : State) (high : Bool) (v : Byte) :
    (s.eventClear high v).arg = s.arg := rfl

@[simp] theorem eventClear_res (s : State) (high : Bool) (v : Byte) :
    (s.eventClear high v).res = s.res := rfl

@[simp] theorem eventClear_cmdStatus (s : State) (high : Bool) (v : Byte) :
    (s.eventClear high v).cmdStatus = s.cmdStatus := rfl

@[simp] theorem eventClear_busy (s : State) (high : Bool) (v : Byte) :
    (s.eventClear high v).busy = s.busy := rfl

@[simp] theorem eventClear_event (s : State) (high : Bool) (v : Byte) :
    (s.eventClear high v).event = s.event &&& ~~~(if high then half v 0 else half 0 v) := rfl

@[simp] theorem eventClear_eventEn (s : State) (high : Bool) (v : Byte) :
    (s.eventClear high v).eventEn = s.eventEn := rfl

@[simp] theorem eventClear_condEn (s : State) (high : Bool) (v : Byte) :
    (s.eventClear high v).condEn = s.condEn := rfl

@[simp] theorem eventClear_snapEvent (s : State) (high : Bool) (v : Byte) :
    (s.eventClear high v).snapEvent = s.snapEvent := rfl

@[simp] theorem eventClear_snapEventEn (s : State) (high : Bool) (v : Byte) :
    (s.eventClear high v).snapEventEn = s.snapEventEn := rfl

@[simp] theorem eventClear_snapFree (s : State) (high : Bool) (v : Byte) :
    (s.eventClear high v).snapFree = s.snapFree := rfl

@[simp] theorem eventClear_snapDiv (s : State) (high : Bool) (v : Byte) :
    (s.eventClear high v).snapDiv = s.snapDiv := rfl

@[simp] theorem eventClear_snapSpacing (s : State) (high : Bool) (v : Byte) :
    (s.eventClear high v).snapSpacing = s.snapSpacing := rfl

@[simp] theorem eventClear_chsel (s : State) (high : Bool) (v : Byte) :
    (s.eventClear high v).chsel = s.chsel := rfl

@[simp] theorem eventClear_mem (s : State) (high : Bool) (v : Byte) :
    (s.eventClear high v).mem = s.mem := rfl

@[simp] theorem eventClear_pageTable (s : State) (high : Bool) (v : Byte) :
    (s.eventClear high v).pageTable = s.pageTable := rfl

@[simp] theorem eventClear_freeList (s : State) (high : Bool) (v : Byte) :
    (s.eventClear high v).freeList = s.freeList := rfl

@[simp] theorem eventClear_reserve (s : State) (high : Bool) (v : Byte) :
    (s.eventClear high v).reserve = s.reserve := rfl

@[simp] theorem eventClear_lastRx (s : State) (high : Bool) (v : Byte) :
    (s.eventClear high v).lastRx = s.lastRx := rfl

@[simp] theorem eventClear_port (s : State) (high : Bool) (v : Byte) :
    (s.eventClear high v).port = s.port := rfl

@[simp] theorem eventClear_station (s : State) (high : Bool) (v : Byte) :
    (s.eventClear high v).station = s.station := rfl

@[simp] theorem eventClear_seqTable (s : State) (high : Bool) (v : Byte) :
    (s.eventClear high v).seqTable = s.seqTable := rfl

@[simp] theorem eventClear_rfq (s : State) (high : Bool) (v : Byte) :
    (s.eventClear high v).rfq = s.rfq := rfl

@[simp] theorem eventClear_arrival (s : State) (high : Bool) (v : Byte) :
    (s.eventClear high v).arrival = s.arrival := rfl

@[simp] theorem eventClear_tcq (s : State) (high : Bool) (v : Byte) :
    (s.eventClear high v).tcq = s.tcq := rfl

@[simp] theorem eventClear_lastTcq (s : State) (high : Bool) (v : Byte) :
    (s.eventClear high v).lastTcq = s.lastTcq := rfl

@[simp] theorem eventClear_pool (s : State) (high : Bool) (v : Byte) :
    (s.eventClear high v).pool = s.pool := rfl

@[simp] theorem eventClear_holdLevel (s : State) (high : Bool) (v : Byte) :
    (s.eventClear high v).holdLevel = s.holdLevel := rfl

@[simp] theorem eventClear_resumeLevel (s : State) (high : Bool) (v : Byte) :
    (s.eventClear high v).resumeLevel = s.resumeLevel := rfl

@[simp] theorem eventClear_holdTime (s : State) (high : Bool) (v : Byte) :
    (s.eventClear high v).holdTime = s.holdTime := rfl

@[simp] theorem eventClear_chans (s : State) (high : Bool) (v : Byte) :
    (s.eventClear high v).chans = s.chans := rfl

/-! ### advance -/

@[simp] theorem advance_pending (s : State) :
    (s.advance).pending = s.pending := rfl

@[simp] theorem advance_resetLow (s : State) :
    (s.advance).resetLow = s.resetNext := rfl

@[simp] theorem advance_resetIn (s : State) :
    (s.advance).resetIn = s.resetIn.tail := rfl

@[simp] theorem advance_rxdIn (s : State) :
    (s.advance).rxdIn = s.rxdIn.tail := rfl

@[simp] theorem advance_dOut (s : State) :
    (s.advance).dOut = s.dOut := rfl

@[simp] theorem advance_arg (s : State) :
    (s.advance).arg = s.arg := rfl

@[simp] theorem advance_res (s : State) :
    (s.advance).res = s.res := rfl

@[simp] theorem advance_cmdStatus (s : State) :
    (s.advance).cmdStatus = s.cmdStatus := rfl

@[simp] theorem advance_busy (s : State) :
    (s.advance).busy = s.busy := rfl

@[simp] theorem advance_event (s : State) :
    (s.advance).event = s.event := rfl

@[simp] theorem advance_eventEn (s : State) :
    (s.advance).eventEn = s.eventEn := rfl

@[simp] theorem advance_condEn (s : State) :
    (s.advance).condEn = s.condEn := rfl

@[simp] theorem advance_snapEvent (s : State) :
    (s.advance).snapEvent = s.snapEvent := rfl

@[simp] theorem advance_snapEventEn (s : State) :
    (s.advance).snapEventEn = s.snapEventEn := rfl

@[simp] theorem advance_snapFree (s : State) :
    (s.advance).snapFree = s.snapFree := rfl

@[simp] theorem advance_snapDiv (s : State) :
    (s.advance).snapDiv = s.snapDiv := rfl

@[simp] theorem advance_snapSpacing (s : State) :
    (s.advance).snapSpacing = s.snapSpacing := rfl

@[simp] theorem advance_chsel (s : State) :
    (s.advance).chsel = s.chsel := rfl

@[simp] theorem advance_mem (s : State) :
    (s.advance).mem = s.mem := rfl

@[simp] theorem advance_pageTable (s : State) :
    (s.advance).pageTable = s.pageTable := rfl

@[simp] theorem advance_freeList (s : State) :
    (s.advance).freeList = s.freeList := rfl

@[simp] theorem advance_reserve (s : State) :
    (s.advance).reserve = s.reserve := rfl

@[simp] theorem advance_lastRx (s : State) :
    (s.advance).lastRx = s.lastRx := rfl

@[simp] theorem advance_port (s : State) :
    (s.advance).port = s.port := rfl

@[simp] theorem advance_station (s : State) :
    (s.advance).station = s.station := rfl

@[simp] theorem advance_seqTable (s : State) :
    (s.advance).seqTable = s.seqTable := rfl

@[simp] theorem advance_rfq (s : State) :
    (s.advance).rfq = s.rfq := rfl

@[simp] theorem advance_arrival (s : State) :
    (s.advance).arrival = s.arrival := rfl

@[simp] theorem advance_tcq (s : State) :
    (s.advance).tcq = s.tcq := rfl

@[simp] theorem advance_lastTcq (s : State) :
    (s.advance).lastTcq = s.lastTcq := rfl

@[simp] theorem advance_pool (s : State) :
    (s.advance).pool = s.pool := rfl

@[simp] theorem advance_holdLevel (s : State) :
    (s.advance).holdLevel = s.holdLevel := rfl

@[simp] theorem advance_resumeLevel (s : State) :
    (s.advance).resumeLevel = s.resumeLevel := rfl

@[simp] theorem advance_holdTime (s : State) :
    (s.advance).holdTime = s.holdTime := rfl

/-! ### Updates under a condition -/

theorem raiseIf_eq (s : State) (b : Bool) (e : Event) :
    s.raiseIf b e = { s with event := if b then s.event ||| e.mask else s.event } := by
  cases b <;> rfl

@[simp] theorem raiseIf_false (s : State) (e : Event) : s.raiseIf false e = s := rfl

@[simp] theorem raiseIf_true (s : State) (e : Event) : s.raiseIf true e = s.raise e := rfl

/-- A count changes one counter of one channel, and EVENT when the counter saturates. -/
theorem count_eq (s : State) (c : Chan) (k : Counter) :
    s.count c k =
      { s with
        chans := s.chans.set c (Channel.counted k (s.chans.get c))
        event :=
          if (s.chan c).counter k == 0xFFFE then s.event ||| Event.counterSat.mask else s.event } := by
  unfold count
  rw [raiseIf_eq]
  rfl

end State
end Machine
end Sys2Proof
end

