-- ==== Sys2Proof/Laws/Frames.lean ====
section
/-!
SUPPORT. Frames: for each shared operation, the fields it leaves as they were, in one lemma that simp
uses field by field. The fields a lemma does not list are the ones the operation may change.
-/
namespace Sys2Proof.Machine.State

@[simp] theorem raiseIf_frame (s : State) (b : Bool) (e : Event) :
    (s.raiseIf b e).pending = s.pending ∧ (s.raiseIf b e).resetLow = s.resetLow ∧
    (s.raiseIf b e).resetIn = s.resetIn ∧ (s.raiseIf b e).rxdIn = s.rxdIn ∧
    (s.raiseIf b e).dOut = s.dOut ∧ (s.raiseIf b e).arg = s.arg ∧ (s.raiseIf b e).res = s.res ∧
    (s.raiseIf b e).cmdStatus = s.cmdStatus ∧ (s.raiseIf b e).busy = s.busy ∧
    (s.raiseIf b e).eventEn = s.eventEn ∧ (s.raiseIf b e).condEn = s.condEn ∧
    (s.raiseIf b e).snapEvent = s.snapEvent ∧ (s.raiseIf b e).snapEventEn = s.snapEventEn ∧
    (s.raiseIf b e).snapFree = s.snapFree ∧ (s.raiseIf b e).snapDiv = s.snapDiv ∧
    (s.raiseIf b e).snapSpacing = s.snapSpacing ∧ (s.raiseIf b e).chsel = s.chsel ∧
    (s.raiseIf b e).mem = s.mem ∧ (s.raiseIf b e).pageTable = s.pageTable ∧
    (s.raiseIf b e).freeList = s.freeList ∧ (s.raiseIf b e).reserve = s.reserve ∧
    (s.raiseIf b e).lastRx = s.lastRx ∧ (s.raiseIf b e).port = s.port ∧
    (s.raiseIf b e).station = s.station ∧ (s.raiseIf b e).seqTable = s.seqTable ∧
    (s.raiseIf b e).rfq = s.rfq ∧ (s.raiseIf b e).arrival = s.arrival ∧
    (s.raiseIf b e).tcq = s.tcq ∧ (s.raiseIf b e).lastTcq = s.lastTcq ∧
    (s.raiseIf b e).pool = s.pool ∧ (s.raiseIf b e).holdLevel = s.holdLevel ∧
    (s.raiseIf b e).resumeLevel = s.resumeLevel ∧ (s.raiseIf b e).holdTime = s.holdTime ∧
    (s.raiseIf b e).chans = s.chans := by
  cases b <;> simp [State.raiseIf]

@[simp] theorem count_frame (s : State) (c : Chan) (k : Counter) :
    (s.count c k).pending = s.pending ∧ (s.count c k).resetLow = s.resetLow ∧
    (s.count c k).resetIn = s.resetIn ∧ (s.count c k).rxdIn = s.rxdIn ∧
    (s.count c k).dOut = s.dOut ∧ (s.count c k).arg = s.arg ∧ (s.count c k).res = s.res ∧
    (s.count c k).cmdStatus = s.cmdStatus ∧ (s.count c k).busy = s.busy ∧
    (s.count c k).eventEn = s.eventEn ∧ (s.count c k).condEn = s.condEn ∧
    (s.count c k).snapEvent = s.snapEvent ∧ (s.count c k).snapEventEn = s.snapEventEn ∧
    (s.count c k).snapFree = s.snapFree ∧ (s.count c k).snapDiv = s.snapDiv ∧
    (s.count c k).snapSpacing = s.snapSpacing ∧ (s.count c k).chsel = s.chsel ∧
    (s.count c k).mem = s.mem ∧ (s.count c k).pageTable = s.pageTable ∧
    (s.count c k).freeList = s.freeList ∧ (s.count c k).reserve = s.reserve ∧
    (s.count c k).lastRx = s.lastRx ∧ (s.count c k).port = s.port ∧
    (s.count c k).station = s.station ∧ (s.count c k).seqTable = s.seqTable ∧
    (s.count c k).rfq = s.rfq ∧ (s.count c k).arrival = s.arrival ∧ (s.count c k).tcq = s.tcq ∧
    (s.count c k).lastTcq = s.lastTcq ∧ (s.count c k).pool = s.pool ∧
    (s.count c k).holdLevel = s.holdLevel ∧ (s.count c k).resumeLevel = s.resumeLevel ∧
    (s.count c k).holdTime = s.holdTime := by
  simp [State.count]

@[simp] theorem poolJudge_frame (s : State) :
    (s.poolJudge).pending = s.pending ∧ (s.poolJudge).resetLow = s.resetLow ∧
    (s.poolJudge).resetIn = s.resetIn ∧ (s.poolJudge).rxdIn = s.rxdIn ∧
    (s.poolJudge).dOut = s.dOut ∧ (s.poolJudge).arg = s.arg ∧ (s.poolJudge).res = s.res ∧
    (s.poolJudge).cmdStatus = s.cmdStatus ∧ (s.poolJudge).busy = s.busy ∧
    (s.poolJudge).eventEn = s.eventEn ∧ (s.poolJudge).condEn = s.condEn ∧
    (s.poolJudge).snapEvent = s.snapEvent ∧ (s.poolJudge).snapEventEn = s.snapEventEn ∧
    (s.poolJudge).snapFree = s.snapFree ∧ (s.poolJudge).snapDiv = s.snapDiv ∧
    (s.poolJudge).snapSpacing = s.snapSpacing ∧ (s.poolJudge).chsel = s.chsel ∧
    (s.poolJudge).mem = s.mem ∧ (s.poolJudge).pageTable = s.pageTable ∧
    (s.poolJudge).freeList = s.freeList ∧ (s.poolJudge).reserve = s.reserve ∧
    (s.poolJudge).lastRx = s.lastRx ∧ (s.poolJudge).port = s.port ∧
    (s.poolJudge).station = s.station ∧ (s.poolJudge).seqTable = s.seqTable ∧
    (s.poolJudge).rfq = s.rfq ∧ (s.poolJudge).arrival = s.arrival ∧ (s.poolJudge).tcq = s.tcq ∧
    (s.poolJudge).lastTcq = s.lastTcq ∧ (s.poolJudge).holdLevel = s.holdLevel ∧
    (s.poolJudge).resumeLevel = s.resumeLevel ∧ (s.poolJudge).holdTime = s.holdTime := by
  unfold State.poolJudge; split <;> split <;> simp

@[simp] theorem grant_frame (s : State) (o : Owner) (n : Nat) :
    (s.grant o n).pending = s.pending ∧ (s.grant o n).resetLow = s.resetLow ∧
    (s.grant o n).resetIn = s.resetIn ∧ (s.grant o n).rxdIn = s.rxdIn ∧
    (s.grant o n).dOut = s.dOut ∧ (s.grant o n).arg = s.arg ∧ (s.grant o n).res = s.res ∧
    (s.grant o n).cmdStatus = s.cmdStatus ∧ (s.grant o n).busy = s.busy ∧
    (s.grant o n).eventEn = s.eventEn ∧ (s.grant o n).condEn = s.condEn ∧
    (s.grant o n).snapEvent = s.snapEvent ∧ (s.grant o n).snapEventEn = s.snapEventEn ∧
    (s.grant o n).snapFree = s.snapFree ∧ (s.grant o n).snapDiv = s.snapDiv ∧
    (s.grant o n).snapSpacing = s.snapSpacing ∧ (s.grant o n).chsel = s.chsel ∧
    (s.grant o n).mem = s.mem ∧ (s.grant o n).reserve = s.reserve ∧
    (s.grant o n).lastRx = s.lastRx ∧ (s.grant o n).port = s.port ∧
    (s.grant o n).station = s.station ∧ (s.grant o n).seqTable = s.seqTable ∧
    (s.grant o n).rfq = s.rfq ∧ (s.grant o n).arrival = s.arrival ∧ (s.grant o n).tcq = s.tcq ∧
    (s.grant o n).lastTcq = s.lastTcq ∧ (s.grant o n).holdLevel = s.holdLevel ∧
    (s.grant o n).resumeLevel = s.resumeLevel ∧ (s.grant o n).holdTime = s.holdTime := by
  simp [State.grant]

@[simp] theorem release_frame (s : State) (h : Page) :
    (s.release h).pending = s.pending ∧ (s.release h).resetLow = s.resetLow ∧
    (s.release h).resetIn = s.resetIn ∧ (s.release h).rxdIn = s.rxdIn ∧
    (s.release h).dOut = s.dOut ∧ (s.release h).arg = s.arg ∧ (s.release h).res = s.res ∧
    (s.release h).cmdStatus = s.cmdStatus ∧ (s.release h).busy = s.busy ∧
    (s.release h).eventEn = s.eventEn ∧ (s.release h).condEn = s.condEn ∧
    (s.release h).snapEvent = s.snapEvent ∧ (s.release h).snapEventEn = s.snapEventEn ∧
    (s.release h).snapFree = s.snapFree ∧ (s.release h).snapDiv = s.snapDiv ∧
    (s.release h).snapSpacing = s.snapSpacing ∧ (s.release h).chsel = s.chsel ∧
    (s.release h).mem = s.mem ∧ (s.release h).reserve = s.reserve ∧
    (s.release h).lastRx = s.lastRx ∧ (s.release h).port = s.port ∧
    (s.release h).station = s.station ∧ (s.release h).seqTable = s.seqTable ∧
    (s.release h).rfq = s.rfq ∧ (s.release h).arrival = s.arrival ∧ (s.release h).tcq = s.tcq ∧
    (s.release h).lastTcq = s.lastTcq ∧ (s.release h).holdLevel = s.holdLevel ∧
    (s.release h).resumeLevel = s.resumeLevel ∧ (s.release h).holdTime = s.holdTime := by
  simp [State.release]

@[simp] theorem settle_frame (s : State) :
    (s.settle).pending = s.pending ∧ (s.settle).resetLow = s.resetLow ∧
    (s.settle).resetIn = s.resetIn ∧ (s.settle).rxdIn = s.rxdIn ∧ (s.settle).dOut = s.dOut ∧
    (s.settle).arg = s.arg ∧ (s.settle).res = s.res ∧ (s.settle).cmdStatus = s.cmdStatus ∧
    (s.settle).busy = s.busy ∧ (s.settle).eventEn = s.eventEn ∧ (s.settle).condEn = s.condEn ∧
    (s.settle).snapEvent = s.snapEvent ∧ (s.settle).snapEventEn = s.snapEventEn ∧
    (s.settle).snapFree = s.snapFree ∧ (s.settle).snapDiv = s.snapDiv ∧
    (s.settle).snapSpacing = s.snapSpacing ∧ (s.settle).chsel = s.chsel ∧ (s.settle).mem = s.mem ∧
    (s.settle).pageTable = s.pageTable ∧ (s.settle).freeList = s.freeList ∧
    (s.settle).reserve = s.reserve ∧ (s.settle).lastRx = s.lastRx ∧ (s.settle).port = s.port ∧
    (s.settle).station = s.station ∧ (s.settle).seqTable = s.seqTable ∧ (s.settle).rfq = s.rfq ∧
    (s.settle).arrival = s.arrival ∧ (s.settle).tcq = s.tcq ∧ (s.settle).lastTcq = s.lastTcq ∧
    (s.settle).pool = s.pool ∧ (s.settle).holdLevel = s.holdLevel ∧
    (s.settle).resumeLevel = s.resumeLevel ∧ (s.settle).holdTime = s.holdTime := by
  simp [State.settle]

@[simp] theorem serveRequest_frame (s : State) (c : Chan) (n : Nat) :
    (s.serveRequest c n).pending = s.pending ∧ (s.serveRequest c n).resetLow = s.resetLow ∧
    (s.serveRequest c n).resetIn = s.resetIn ∧ (s.serveRequest c n).rxdIn = s.rxdIn ∧
    (s.serveRequest c n).dOut = s.dOut ∧ (s.serveRequest c n).arg = s.arg ∧
    (s.serveRequest c n).res = s.res ∧ (s.serveRequest c n).cmdStatus = s.cmdStatus ∧
    (s.serveRequest c n).busy = s.busy ∧ (s.serveRequest c n).eventEn = s.eventEn ∧
    (s.serveRequest c n).condEn = s.condEn ∧ (s.serveRequest c n).snapEvent = s.snapEvent ∧
    (s.serveRequest c n).snapEventEn = s.snapEventEn ∧ (s.serveRequest c n).snapFree = s.snapFree ∧
    (s.serveRequest c n).snapDiv = s.snapDiv ∧ (s.serveRequest c n).snapSpacing = s.snapSpacing ∧
    (s.serveRequest c n).chsel = s.chsel ∧ (s.serveRequest c n).mem = s.mem ∧
    (s.serveRequest c n).reserve = s.reserve ∧ (s.serveRequest c n).port = s.port ∧
    (s.serveRequest c n).station = s.station ∧ (s.serveRequest c n).seqTable = s.seqTable ∧
    (s.serveRequest c n).rfq = s.rfq ∧ (s.serveRequest c n).arrival = s.arrival ∧
    (s.serveRequest c n).tcq = s.tcq ∧ (s.serveRequest c n).lastTcq = s.lastTcq ∧
    (s.serveRequest c n).holdLevel = s.holdLevel ∧
    (s.serveRequest c n).resumeLevel = s.resumeLevel ∧
    (s.serveRequest c n).holdTime = s.holdTime := by
  unfold State.serveRequest; split <;> (try split) <;> simp

@[simp] theorem serveOne_frame (s : State) :
    (s.serveOne).pending = s.pending ∧ (s.serveOne).resetLow = s.resetLow ∧
    (s.serveOne).resetIn = s.resetIn ∧ (s.serveOne).rxdIn = s.rxdIn ∧ (s.serveOne).dOut = s.dOut ∧
    (s.serveOne).arg = s.arg ∧ (s.serveOne).res = s.res ∧ (s.serveOne).cmdStatus = s.cmdStatus ∧
    (s.serveOne).busy = s.busy ∧ (s.serveOne).eventEn = s.eventEn ∧ (s.serveOne).condEn = s.condEn ∧
    (s.serveOne).snapEvent = s.snapEvent ∧ (s.serveOne).snapEventEn = s.snapEventEn ∧
    (s.serveOne).snapFree = s.snapFree ∧ (s.serveOne).snapDiv = s.snapDiv ∧
    (s.serveOne).snapSpacing = s.snapSpacing ∧ (s.serveOne).chsel = s.chsel ∧
    (s.serveOne).mem = s.mem ∧ (s.serveOne).reserve = s.reserve ∧ (s.serveOne).port = s.port ∧
    (s.serveOne).station = s.station ∧ (s.serveOne).seqTable = s.seqTable ∧
    (s.serveOne).rfq = s.rfq ∧ (s.serveOne).arrival = s.arrival ∧ (s.serveOne).tcq = s.tcq ∧
    (s.serveOne).lastTcq = s.lastTcq ∧ (s.serveOne).holdLevel = s.holdLevel ∧
    (s.serveOne).resumeLevel = s.resumeLevel ∧ (s.serveOne).holdTime = s.holdTime := by
  unfold State.serveOne; split <;> (try split) <;> simp

@[simp] theorem serveFor_frame (s : State) (c : Chan) (k : Nat) :
    (s.serveFor c k).pending = s.pending ∧ (s.serveFor c k).resetLow = s.resetLow ∧
    (s.serveFor c k).resetIn = s.resetIn ∧ (s.serveFor c k).rxdIn = s.rxdIn ∧
    (s.serveFor c k).dOut = s.dOut ∧ (s.serveFor c k).arg = s.arg ∧ (s.serveFor c k).res = s.res ∧
    (s.serveFor c k).cmdStatus = s.cmdStatus ∧ (s.serveFor c k).busy = s.busy ∧
    (s.serveFor c k).eventEn = s.eventEn ∧ (s.serveFor c k).condEn = s.condEn ∧
    (s.serveFor c k).snapEvent = s.snapEvent ∧ (s.serveFor c k).snapEventEn = s.snapEventEn ∧
    (s.serveFor c k).snapFree = s.snapFree ∧ (s.serveFor c k).snapDiv = s.snapDiv ∧
    (s.serveFor c k).snapSpacing = s.snapSpacing ∧ (s.serveFor c k).chsel = s.chsel ∧
    (s.serveFor c k).mem = s.mem ∧ (s.serveFor c k).reserve = s.reserve ∧
    (s.serveFor c k).port = s.port ∧ (s.serveFor c k).station = s.station ∧
    (s.serveFor c k).seqTable = s.seqTable ∧ (s.serveFor c k).rfq = s.rfq ∧
    (s.serveFor c k).arrival = s.arrival ∧ (s.serveFor c k).tcq = s.tcq ∧
    (s.serveFor c k).lastTcq = s.lastTcq ∧ (s.serveFor c k).holdLevel = s.holdLevel ∧
    (s.serveFor c k).resumeLevel = s.resumeLevel ∧ (s.serveFor c k).holdTime = s.holdTime := by
  induction k generalizing s with
  | zero => simp [State.serveFor]
  | succ k ih => unfold State.serveFor; split <;> simp [ih]

@[simp] theorem serveAll_frame (s : State) :
    (s.serveAll).pending = s.pending ∧ (s.serveAll).resetLow = s.resetLow ∧
    (s.serveAll).resetIn = s.resetIn ∧ (s.serveAll).rxdIn = s.rxdIn ∧ (s.serveAll).dOut = s.dOut ∧
    (s.serveAll).arg = s.arg ∧ (s.serveAll).res = s.res ∧ (s.serveAll).cmdStatus = s.cmdStatus ∧
    (s.serveAll).busy = s.busy ∧ (s.serveAll).eventEn = s.eventEn ∧ (s.serveAll).condEn = s.condEn ∧
    (s.serveAll).snapEvent = s.snapEvent ∧ (s.serveAll).snapEventEn = s.snapEventEn ∧
    (s.serveAll).snapFree = s.snapFree ∧ (s.serveAll).snapDiv = s.snapDiv ∧
    (s.serveAll).snapSpacing = s.snapSpacing ∧ (s.serveAll).chsel = s.chsel ∧
    (s.serveAll).mem = s.mem ∧ (s.serveAll).reserve = s.reserve ∧ (s.serveAll).port = s.port ∧
    (s.serveAll).station = s.station ∧ (s.serveAll).seqTable = s.seqTable ∧
    (s.serveAll).rfq = s.rfq ∧ (s.serveAll).arrival = s.arrival ∧ (s.serveAll).tcq = s.tcq ∧
    (s.serveAll).lastTcq = s.lastTcq ∧ (s.serveAll).holdLevel = s.holdLevel ∧
    (s.serveAll).resumeLevel = s.resumeLevel ∧ (s.serveAll).holdTime = s.holdTime := by
  simp [State.serveAll]

@[simp] theorem loadRes_frame (s : State) (i : Nat) (l : List Byte) :
    (s.loadRes i l).pending = s.pending ∧ (s.loadRes i l).resetLow = s.resetLow ∧
    (s.loadRes i l).resetIn = s.resetIn ∧ (s.loadRes i l).rxdIn = s.rxdIn ∧
    (s.loadRes i l).dOut = s.dOut ∧ (s.loadRes i l).arg = s.arg ∧
    (s.loadRes i l).cmdStatus = s.cmdStatus ∧ (s.loadRes i l).busy = s.busy ∧
    (s.loadRes i l).event = s.event ∧ (s.loadRes i l).eventEn = s.eventEn ∧
    (s.loadRes i l).condEn = s.condEn ∧ (s.loadRes i l).snapEvent = s.snapEvent ∧
    (s.loadRes i l).snapEventEn = s.snapEventEn ∧ (s.loadRes i l).snapFree = s.snapFree ∧
    (s.loadRes i l).snapDiv = s.snapDiv ∧ (s.loadRes i l).snapSpacing = s.snapSpacing ∧
    (s.loadRes i l).chsel = s.chsel ∧ (s.loadRes i l).mem = s.mem ∧
    (s.loadRes i l).pageTable = s.pageTable ∧ (s.loadRes i l).freeList = s.freeList ∧
    (s.loadRes i l).reserve = s.reserve ∧ (s.loadRes i l).lastRx = s.lastRx ∧
    (s.loadRes i l).port = s.port ∧ (s.loadRes i l).station = s.station ∧
    (s.loadRes i l).seqTable = s.seqTable ∧ (s.loadRes i l).rfq = s.rfq ∧
    (s.loadRes i l).arrival = s.arrival ∧ (s.loadRes i l).tcq = s.tcq ∧
    (s.loadRes i l).lastTcq = s.lastTcq ∧ (s.loadRes i l).pool = s.pool ∧
    (s.loadRes i l).holdLevel = s.holdLevel ∧ (s.loadRes i l).resumeLevel = s.resumeLevel ∧
    (s.loadRes i l).holdTime = s.holdTime ∧ (s.loadRes i l).chans = s.chans := by
  induction l generalizing s i with
  | nil => simp [State.loadRes]
  | cons b bs ih => unfold State.loadRes; split <;> simp [ih]

@[simp] theorem detachFrom_frame (s : State) (h : Page) :
    (s.detachFrom h).pending = s.pending ∧ (s.detachFrom h).resetLow = s.resetLow ∧
    (s.detachFrom h).resetIn = s.resetIn ∧ (s.detachFrom h).rxdIn = s.rxdIn ∧
    (s.detachFrom h).dOut = s.dOut ∧ (s.detachFrom h).arg = s.arg ∧ (s.detachFrom h).res = s.res ∧
    (s.detachFrom h).cmdStatus = s.cmdStatus ∧ (s.detachFrom h).busy = s.busy ∧
    (s.detachFrom h).event = s.event ∧ (s.detachFrom h).eventEn = s.eventEn ∧
    (s.detachFrom h).condEn = s.condEn ∧ (s.detachFrom h).snapEvent = s.snapEvent ∧
    (s.detachFrom h).snapEventEn = s.snapEventEn ∧ (s.detachFrom h).snapFree = s.snapFree ∧
    (s.detachFrom h).snapDiv = s.snapDiv ∧ (s.detachFrom h).snapSpacing = s.snapSpacing ∧
    (s.detachFrom h).chsel = s.chsel ∧ (s.detachFrom h).mem = s.mem ∧
    (s.detachFrom h).pageTable = s.pageTable ∧ (s.detachFrom h).freeList = s.freeList ∧
    (s.detachFrom h).reserve = s.reserve ∧ (s.detachFrom h).lastRx = s.lastRx ∧
    (s.detachFrom h).station = s.station ∧ (s.detachFrom h).seqTable = s.seqTable ∧
    (s.detachFrom h).rfq = s.rfq ∧ (s.detachFrom h).arrival = s.arrival ∧
    (s.detachFrom h).tcq = s.tcq ∧ (s.detachFrom h).lastTcq = s.lastTcq ∧
    (s.detachFrom h).pool = s.pool ∧ (s.detachFrom h).holdLevel = s.holdLevel ∧
    (s.detachFrom h).resumeLevel = s.resumeLevel ∧ (s.detachFrom h).holdTime = s.holdTime ∧
    (s.detachFrom h).chans = s.chans := by
  unfold State.detachFrom; split <;> simp

@[simp] theorem storeChain_frame (s : State) (h : Page) (off : Nat) (v : Byte) :
    (s.storeChain h off v).pending = s.pending ∧ (s.storeChain h off v).resetLow = s.resetLow ∧
    (s.storeChain h off v).resetIn = s.resetIn ∧ (s.storeChain h off v).rxdIn = s.rxdIn ∧
    (s.storeChain h off v).dOut = s.dOut ∧ (s.storeChain h off v).arg = s.arg ∧
    (s.storeChain h off v).res = s.res ∧ (s.storeChain h off v).cmdStatus = s.cmdStatus ∧
    (s.storeChain h off v).busy = s.busy ∧ (s.storeChain h off v).event = s.event ∧
    (s.storeChain h off v).eventEn = s.eventEn ∧ (s.storeChain h off v).condEn = s.condEn ∧
    (s.storeChain h off v).snapEvent = s.snapEvent ∧
    (s.storeChain h off v).snapEventEn = s.snapEventEn ∧
    (s.storeChain h off v).snapFree = s.snapFree ∧ (s.storeChain h off v).snapDiv = s.snapDiv ∧
    (s.storeChain h off v).snapSpacing = s.snapSpacing ∧ (s.storeChain h off v).chsel = s.chsel ∧
    (s.storeChain h off v).pageTable = s.pageTable ∧ (s.storeChain h off v).freeList = s.freeList ∧
    (s.storeChain h off v).reserve = s.reserve ∧ (s.storeChain h off v).lastRx = s.lastRx ∧
    (s.storeChain h off v).port = s.port ∧ (s.storeChain h off v).station = s.station ∧
    (s.storeChain h off v).seqTable = s.seqTable ∧ (s.storeChain h off v).rfq = s.rfq ∧
    (s.storeChain h off v).arrival = s.arrival ∧ (s.storeChain h off v).tcq = s.tcq ∧
    (s.storeChain h off v).lastTcq = s.lastTcq ∧ (s.storeChain h off v).pool = s.pool ∧
    (s.storeChain h off v).holdLevel = s.holdLevel ∧
    (s.storeChain h off v).resumeLevel = s.resumeLevel ∧
    (s.storeChain h off v).holdTime = s.holdTime ∧ (s.storeChain h off v).chans = s.chans := by
  unfold State.storeChain; split <;> simp

@[simp] theorem storeBytes_frame (s : State) (h : Page) (off : Nat) (l : List Byte) :
    (s.storeBytes h off l).pending = s.pending ∧ (s.storeBytes h off l).resetLow = s.resetLow ∧
    (s.storeBytes h off l).resetIn = s.resetIn ∧ (s.storeBytes h off l).rxdIn = s.rxdIn ∧
    (s.storeBytes h off l).dOut = s.dOut ∧ (s.storeBytes h off l).arg = s.arg ∧
    (s.storeBytes h off l).res = s.res ∧ (s.storeBytes h off l).cmdStatus = s.cmdStatus ∧
    (s.storeBytes h off l).busy = s.busy ∧ (s.storeBytes h off l).event = s.event ∧
    (s.storeBytes h off l).eventEn = s.eventEn ∧ (s.storeBytes h off l).condEn = s.condEn ∧
    (s.storeBytes h off l).snapEvent = s.snapEvent ∧
    (s.storeBytes h off l).snapEventEn = s.snapEventEn ∧
    (s.storeBytes h off l).snapFree = s.snapFree ∧ (s.storeBytes h off l).snapDiv = s.snapDiv ∧
    (s.storeBytes h off l).snapSpacing = s.snapSpacing ∧ (s.storeBytes h off l).chsel = s.chsel ∧
    (s.storeBytes h off l).pageTable = s.pageTable ∧ (s.storeBytes h off l).freeList = s.freeList ∧
    (s.storeBytes h off l).reserve = s.reserve ∧ (s.storeBytes h off l).lastRx = s.lastRx ∧
    (s.storeBytes h off l).port = s.port ∧ (s.storeBytes h off l).station = s.station ∧
    (s.storeBytes h off l).seqTable = s.seqTable ∧ (s.storeBytes h off l).rfq = s.rfq ∧
    (s.storeBytes h off l).arrival = s.arrival ∧ (s.storeBytes h off l).tcq = s.tcq ∧
    (s.storeBytes h off l).lastTcq = s.lastTcq ∧ (s.storeBytes h off l).pool = s.pool ∧
    (s.storeBytes h off l).holdLevel = s.holdLevel ∧
    (s.storeBytes h off l).resumeLevel = s.resumeLevel ∧
    (s.storeBytes h off l).holdTime = s.holdTime ∧ (s.storeBytes h off l).chans = s.chans := by
  induction l generalizing s off with
  | nil => simp [State.storeBytes]
  | cons b bs ih => unfold State.storeBytes; simp [ih]

@[simp] theorem finishEntry_frame (s : State) (c : Chan) (o : TxOutcome) :
    (s.finishEntry c o).pending = s.pending ∧ (s.finishEntry c o).resetLow = s.resetLow ∧
    (s.finishEntry c o).resetIn = s.resetIn ∧ (s.finishEntry c o).rxdIn = s.rxdIn ∧
    (s.finishEntry c o).dOut = s.dOut ∧ (s.finishEntry c o).arg = s.arg ∧
    (s.finishEntry c o).res = s.res ∧ (s.finishEntry c o).cmdStatus = s.cmdStatus ∧
    (s.finishEntry c o).busy = s.busy ∧ (s.finishEntry c o).eventEn = s.eventEn ∧
    (s.finishEntry c o).condEn = s.condEn ∧ (s.finishEntry c o).snapEvent = s.snapEvent ∧
    (s.finishEntry c o).snapEventEn = s.snapEventEn ∧ (s.finishEntry c o).snapFree = s.snapFree ∧
    (s.finishEntry c o).snapDiv = s.snapDiv ∧ (s.finishEntry c o).snapSpacing = s.snapSpacing ∧
    (s.finishEntry c o).chsel = s.chsel ∧ (s.finishEntry c o).mem = s.mem ∧
    (s.finishEntry c o).reserve = s.reserve ∧ (s.finishEntry c o).lastRx = s.lastRx ∧
    (s.finishEntry c o).port = s.port ∧ (s.finishEntry c o).station = s.station ∧
    (s.finishEntry c o).seqTable = s.seqTable ∧ (s.finishEntry c o).rfq = s.rfq ∧
    (s.finishEntry c o).arrival = s.arrival ∧ (s.finishEntry c o).lastTcq = s.lastTcq ∧
    (s.finishEntry c o).holdLevel = s.holdLevel ∧ (s.finishEntry c o).resumeLevel = s.resumeLevel ∧
    (s.finishEntry c o).holdTime = s.holdTime := by
  unfold State.finishEntry; split <;> (try dsimp only) <;> (try split) <;> simp

@[simp] theorem claim_frame (s : State) (c : Chan) (o : TxOutcome) :
    (s.claim c o).pending = s.pending ∧ (s.claim c o).resetLow = s.resetLow ∧
    (s.claim c o).resetIn = s.resetIn ∧ (s.claim c o).rxdIn = s.rxdIn ∧
    (s.claim c o).dOut = s.dOut ∧ (s.claim c o).arg = s.arg ∧ (s.claim c o).res = s.res ∧
    (s.claim c o).cmdStatus = s.cmdStatus ∧ (s.claim c o).busy = s.busy ∧
    (s.claim c o).eventEn = s.eventEn ∧ (s.claim c o).condEn = s.condEn ∧
    (s.claim c o).snapEvent = s.snapEvent ∧ (s.claim c o).snapEventEn = s.snapEventEn ∧
    (s.claim c o).snapFree = s.snapFree ∧ (s.claim c o).snapDiv = s.snapDiv ∧
    (s.claim c o).snapSpacing = s.snapSpacing ∧ (s.claim c o).chsel = s.chsel ∧
    (s.claim c o).mem = s.mem ∧ (s.claim c o).reserve = s.reserve ∧
    (s.claim c o).lastRx = s.lastRx ∧ (s.claim c o).port = s.port ∧
    (s.claim c o).station = s.station ∧ (s.claim c o).seqTable = s.seqTable ∧
    (s.claim c o).rfq = s.rfq ∧ (s.claim c o).arrival = s.arrival ∧
    (s.claim c o).lastTcq = s.lastTcq ∧ (s.claim c o).holdLevel = s.holdLevel ∧
    (s.claim c o).resumeLevel = s.resumeLevel ∧ (s.claim c o).holdTime = s.holdTime := by
  unfold State.claim; split <;> simp

@[simp] theorem completeAborted_frame (s : State) (c : Chan) :
    (s.completeAborted c).pending = s.pending ∧ (s.completeAborted c).resetLow = s.resetLow ∧
    (s.completeAborted c).resetIn = s.resetIn ∧ (s.completeAborted c).rxdIn = s.rxdIn ∧
    (s.completeAborted c).dOut = s.dOut ∧ (s.completeAborted c).arg = s.arg ∧
    (s.completeAborted c).res = s.res ∧ (s.completeAborted c).cmdStatus = s.cmdStatus ∧
    (s.completeAborted c).busy = s.busy ∧ (s.completeAborted c).eventEn = s.eventEn ∧
    (s.completeAborted c).condEn = s.condEn ∧ (s.completeAborted c).snapEvent = s.snapEvent ∧
    (s.completeAborted c).snapEventEn = s.snapEventEn ∧
    (s.completeAborted c).snapFree = s.snapFree ∧ (s.completeAborted c).snapDiv = s.snapDiv ∧
    (s.completeAborted c).snapSpacing = s.snapSpacing ∧ (s.completeAborted c).chsel = s.chsel ∧
    (s.completeAborted c).mem = s.mem ∧ (s.completeAborted c).reserve = s.reserve ∧
    (s.completeAborted c).lastRx = s.lastRx ∧ (s.completeAborted c).port = s.port ∧
    (s.completeAborted c).station = s.station ∧ (s.completeAborted c).seqTable = s.seqTable ∧
    (s.completeAborted c).rfq = s.rfq ∧ (s.completeAborted c).arrival = s.arrival ∧
    (s.completeAborted c).lastTcq = s.lastTcq ∧ (s.completeAborted c).holdLevel = s.holdLevel ∧
    (s.completeAborted c).resumeLevel = s.resumeLevel ∧
    (s.completeAborted c).holdTime = s.holdTime := by
  unfold State.completeAborted; split <;> (try dsimp only) <;> (try split) <;> simp

@[simp] theorem deliver_frame (s : State) (c : Chan) (nak : Bool) (src : Byte) (q : BitVec 3) :
    (s.deliver c nak src q).pending = s.pending ∧ (s.deliver c nak src q).resetLow = s.resetLow ∧
    (s.deliver c nak src q).resetIn = s.resetIn ∧ (s.deliver c nak src q).rxdIn = s.rxdIn ∧
    (s.deliver c nak src q).dOut = s.dOut ∧ (s.deliver c nak src q).arg = s.arg ∧
    (s.deliver c nak src q).res = s.res ∧ (s.deliver c nak src q).cmdStatus = s.cmdStatus ∧
    (s.deliver c nak src q).busy = s.busy ∧ (s.deliver c nak src q).eventEn = s.eventEn ∧
    (s.deliver c nak src q).condEn = s.condEn ∧ (s.deliver c nak src q).snapEvent = s.snapEvent ∧
    (s.deliver c nak src q).snapEventEn = s.snapEventEn ∧
    (s.deliver c nak src q).snapFree = s.snapFree ∧ (s.deliver c nak src q).snapDiv = s.snapDiv ∧
    (s.deliver c nak src q).snapSpacing = s.snapSpacing ∧ (s.deliver c nak src q).chsel = s.chsel ∧
    (s.deliver c nak src q).mem = s.mem ∧ (s.deliver c nak src q).reserve = s.reserve ∧
    (s.deliver c nak src q).lastRx = s.lastRx ∧ (s.deliver c nak src q).port = s.port ∧
    (s.deliver c nak src q).station = s.station ∧ (s.deliver c nak src q).seqTable = s.seqTable ∧
    (s.deliver c nak src q).rfq = s.rfq ∧ (s.deliver c nak src q).arrival = s.arrival ∧
    (s.deliver c nak src q).lastTcq = s.lastTcq ∧ (s.deliver c nak src q).holdLevel = s.holdLevel ∧
    (s.deliver c nak src q).resumeLevel = s.resumeLevel ∧
    (s.deliver c nak src q).holdTime = s.holdTime := by
  unfold State.deliver; dsimp only; repeat' split
  all_goals simp

@[simp] theorem attemptClean_frame (s : State) (c : Chan) :
    (s.attemptClean c).pending = s.pending ∧ (s.attemptClean c).resetLow = s.resetLow ∧
    (s.attemptClean c).resetIn = s.resetIn ∧ (s.attemptClean c).rxdIn = s.rxdIn ∧
    (s.attemptClean c).dOut = s.dOut ∧ (s.attemptClean c).arg = s.arg ∧
    (s.attemptClean c).res = s.res ∧ (s.attemptClean c).cmdStatus = s.cmdStatus ∧
    (s.attemptClean c).busy = s.busy ∧ (s.attemptClean c).eventEn = s.eventEn ∧
    (s.attemptClean c).condEn = s.condEn ∧ (s.attemptClean c).snapEvent = s.snapEvent ∧
    (s.attemptClean c).snapEventEn = s.snapEventEn ∧ (s.attemptClean c).snapFree = s.snapFree ∧
    (s.attemptClean c).snapDiv = s.snapDiv ∧ (s.attemptClean c).snapSpacing = s.snapSpacing ∧
    (s.attemptClean c).chsel = s.chsel ∧ (s.attemptClean c).mem = s.mem ∧
    (s.attemptClean c).reserve = s.reserve ∧ (s.attemptClean c).lastRx = s.lastRx ∧
    (s.attemptClean c).port = s.port ∧ (s.attemptClean c).station = s.station ∧
    (s.attemptClean c).seqTable = s.seqTable ∧ (s.attemptClean c).rfq = s.rfq ∧
    (s.attemptClean c).arrival = s.arrival ∧ (s.attemptClean c).lastTcq = s.lastTcq ∧
    (s.attemptClean c).holdLevel = s.holdLevel ∧ (s.attemptClean c).resumeLevel = s.resumeLevel ∧
    (s.attemptClean c).holdTime = s.holdTime := by
  unfold State.attemptClean; repeat' split
  all_goals simp

@[simp] theorem attemptCollision_frame (s : State) (c : Chan) :
    (s.attemptCollision c).pending = s.pending ∧ (s.attemptCollision c).resetLow = s.resetLow ∧
    (s.attemptCollision c).resetIn = s.resetIn ∧ (s.attemptCollision c).rxdIn = s.rxdIn ∧
    (s.attemptCollision c).dOut = s.dOut ∧ (s.attemptCollision c).arg = s.arg ∧
    (s.attemptCollision c).res = s.res ∧ (s.attemptCollision c).cmdStatus = s.cmdStatus ∧
    (s.attemptCollision c).busy = s.busy ∧ (s.attemptCollision c).eventEn = s.eventEn ∧
    (s.attemptCollision c).condEn = s.condEn ∧ (s.attemptCollision c).snapEvent = s.snapEvent ∧
    (s.attemptCollision c).snapEventEn = s.snapEventEn ∧
    (s.attemptCollision c).snapFree = s.snapFree ∧ (s.attemptCollision c).snapDiv = s.snapDiv ∧
    (s.attemptCollision c).snapSpacing = s.snapSpacing ∧ (s.attemptCollision c).chsel = s.chsel ∧
    (s.attemptCollision c).mem = s.mem ∧ (s.attemptCollision c).reserve = s.reserve ∧
    (s.attemptCollision c).lastRx = s.lastRx ∧ (s.attemptCollision c).port = s.port ∧
    (s.attemptCollision c).station = s.station ∧ (s.attemptCollision c).seqTable = s.seqTable ∧
    (s.attemptCollision c).rfq = s.rfq ∧ (s.attemptCollision c).arrival = s.arrival ∧
    (s.attemptCollision c).lastTcq = s.lastTcq ∧ (s.attemptCollision c).holdLevel = s.holdLevel ∧
    (s.attemptCollision c).resumeLevel = s.resumeLevel ∧
    (s.attemptCollision c).holdTime = s.holdTime := by
  unfold State.attemptCollision; dsimp only; repeat' split
  all_goals simp

@[simp] theorem ackTimeout_frame (s : State) (c : Chan) :
    (s.ackTimeout c).pending = s.pending ∧ (s.ackTimeout c).resetLow = s.resetLow ∧
    (s.ackTimeout c).resetIn = s.resetIn ∧ (s.ackTimeout c).rxdIn = s.rxdIn ∧
    (s.ackTimeout c).dOut = s.dOut ∧ (s.ackTimeout c).arg = s.arg ∧ (s.ackTimeout c).res = s.res ∧
    (s.ackTimeout c).cmdStatus = s.cmdStatus ∧ (s.ackTimeout c).busy = s.busy ∧
    (s.ackTimeout c).eventEn = s.eventEn ∧ (s.ackTimeout c).condEn = s.condEn ∧
    (s.ackTimeout c).snapEvent = s.snapEvent ∧ (s.ackTimeout c).snapEventEn = s.snapEventEn ∧
    (s.ackTimeout c).snapFree = s.snapFree ∧ (s.ackTimeout c).snapDiv = s.snapDiv ∧
    (s.ackTimeout c).snapSpacing = s.snapSpacing ∧ (s.ackTimeout c).chsel = s.chsel ∧
    (s.ackTimeout c).mem = s.mem ∧ (s.ackTimeout c).reserve = s.reserve ∧
    (s.ackTimeout c).lastRx = s.lastRx ∧ (s.ackTimeout c).port = s.port ∧
    (s.ackTimeout c).station = s.station ∧ (s.ackTimeout c).seqTable = s.seqTable ∧
    (s.ackTimeout c).rfq = s.rfq ∧ (s.ackTimeout c).arrival = s.arrival ∧
    (s.ackTimeout c).lastTcq = s.lastTcq ∧ (s.ackTimeout c).holdLevel = s.holdLevel ∧
    (s.ackTimeout c).resumeLevel = s.resumeLevel ∧ (s.ackTimeout c).holdTime = s.holdTime := by
  unfold State.ackTimeout; dsimp only; split <;> simp

@[simp] theorem placeResponse_frame (s : State) (c : Chan) (nak : Bool) (e : Engine) :
    (s.placeResponse c nak e).pending = s.pending ∧
    (s.placeResponse c nak e).resetLow = s.resetLow ∧
    (s.placeResponse c nak e).resetIn = s.resetIn ∧ (s.placeResponse c nak e).rxdIn = s.rxdIn ∧
    (s.placeResponse c nak e).dOut = s.dOut ∧ (s.placeResponse c nak e).arg = s.arg ∧
    (s.placeResponse c nak e).res = s.res ∧ (s.placeResponse c nak e).cmdStatus = s.cmdStatus ∧
    (s.placeResponse c nak e).busy = s.busy ∧ (s.placeResponse c nak e).eventEn = s.eventEn ∧
    (s.placeResponse c nak e).condEn = s.condEn ∧
    (s.placeResponse c nak e).snapEvent = s.snapEvent ∧
    (s.placeResponse c nak e).snapEventEn = s.snapEventEn ∧
    (s.placeResponse c nak e).snapFree = s.snapFree ∧
    (s.placeResponse c nak e).snapDiv = s.snapDiv ∧
    (s.placeResponse c nak e).snapSpacing = s.snapSpacing ∧
    (s.placeResponse c nak e).chsel = s.chsel ∧ (s.placeResponse c nak e).mem = s.mem ∧
    (s.placeResponse c nak e).pageTable = s.pageTable ∧
    (s.placeResponse c nak e).freeList = s.freeList ∧
    (s.placeResponse c nak e).reserve = s.reserve ∧ (s.placeResponse c nak e).lastRx = s.lastRx ∧
    (s.placeResponse c nak e).port = s.port ∧ (s.placeResponse c nak e).station = s.station ∧
    (s.placeResponse c nak e).seqTable = s.seqTable ∧ (s.placeResponse c nak e).rfq = s.rfq ∧
    (s.placeResponse c nak e).arrival = s.arrival ∧ (s.placeResponse c nak e).tcq = s.tcq ∧
    (s.placeResponse c nak e).lastTcq = s.lastTcq ∧ (s.placeResponse c nak e).pool = s.pool ∧
    (s.placeResponse c nak e).holdLevel = s.holdLevel ∧
    (s.placeResponse c nak e).resumeLevel = s.resumeLevel ∧
    (s.placeResponse c nak e).holdTime = s.holdTime := by
  unfold State.placeResponse; dsimp only; split <;> simp

@[simp] theorem dropResponse_frame (s : State) (c : Chan) :
    (s.dropResponse c).pending = s.pending ∧ (s.dropResponse c).resetLow = s.resetLow ∧
    (s.dropResponse c).resetIn = s.resetIn ∧ (s.dropResponse c).rxdIn = s.rxdIn ∧
    (s.dropResponse c).dOut = s.dOut ∧ (s.dropResponse c).arg = s.arg ∧
    (s.dropResponse c).res = s.res ∧ (s.dropResponse c).cmdStatus = s.cmdStatus ∧
    (s.dropResponse c).busy = s.busy ∧ (s.dropResponse c).eventEn = s.eventEn ∧
    (s.dropResponse c).condEn = s.condEn ∧ (s.dropResponse c).snapEvent = s.snapEvent ∧
    (s.dropResponse c).snapEventEn = s.snapEventEn ∧ (s.dropResponse c).snapFree = s.snapFree ∧
    (s.dropResponse c).snapDiv = s.snapDiv ∧ (s.dropResponse c).snapSpacing = s.snapSpacing ∧
    (s.dropResponse c).chsel = s.chsel ∧ (s.dropResponse c).mem = s.mem ∧
    (s.dropResponse c).pageTable = s.pageTable ∧ (s.dropResponse c).freeList = s.freeList ∧
    (s.dropResponse c).reserve = s.reserve ∧ (s.dropResponse c).lastRx = s.lastRx ∧
    (s.dropResponse c).port = s.port ∧ (s.dropResponse c).station = s.station ∧
    (s.dropResponse c).seqTable = s.seqTable ∧ (s.dropResponse c).rfq = s.rfq ∧
    (s.dropResponse c).arrival = s.arrival ∧ (s.dropResponse c).tcq = s.tcq ∧
    (s.dropResponse c).lastTcq = s.lastTcq ∧ (s.dropResponse c).pool = s.pool ∧
    (s.dropResponse c).holdLevel = s.holdLevel ∧ (s.dropResponse c).resumeLevel = s.resumeLevel ∧
    (s.dropResponse c).holdTime = s.holdTime := by
  unfold State.dropResponse; split <;> simp

@[simp] theorem dropFilling_frame (s : State) (c : Chan) :
    (s.dropFilling c).pending = s.pending ∧ (s.dropFilling c).resetLow = s.resetLow ∧
    (s.dropFilling c).resetIn = s.resetIn ∧ (s.dropFilling c).rxdIn = s.rxdIn ∧
    (s.dropFilling c).dOut = s.dOut ∧ (s.dropFilling c).arg = s.arg ∧
    (s.dropFilling c).res = s.res ∧ (s.dropFilling c).cmdStatus = s.cmdStatus ∧
    (s.dropFilling c).busy = s.busy ∧ (s.dropFilling c).eventEn = s.eventEn ∧
    (s.dropFilling c).condEn = s.condEn ∧ (s.dropFilling c).snapEvent = s.snapEvent ∧
    (s.dropFilling c).snapEventEn = s.snapEventEn ∧ (s.dropFilling c).snapFree = s.snapFree ∧
    (s.dropFilling c).snapDiv = s.snapDiv ∧ (s.dropFilling c).snapSpacing = s.snapSpacing ∧
    (s.dropFilling c).chsel = s.chsel ∧ (s.dropFilling c).mem = s.mem ∧
    (s.dropFilling c).reserve = s.reserve ∧ (s.dropFilling c).lastRx = s.lastRx ∧
    (s.dropFilling c).port = s.port ∧ (s.dropFilling c).station = s.station ∧
    (s.dropFilling c).seqTable = s.seqTable ∧ (s.dropFilling c).rfq = s.rfq ∧
    (s.dropFilling c).arrival = s.arrival ∧ (s.dropFilling c).tcq = s.tcq ∧
    (s.dropFilling c).lastTcq = s.lastTcq ∧ (s.dropFilling c).holdLevel = s.holdLevel ∧
    (s.dropFilling c).resumeLevel = s.resumeLevel ∧ (s.dropFilling c).holdTime = s.holdTime := by
  unfold State.dropFilling; split <;> simp

@[simp] theorem rejectFrame_frame (s : State) (c : Chan) (k : Counter) (p : Parser) :
    (s.rejectFrame c k p).pending = s.pending ∧ (s.rejectFrame c k p).resetLow = s.resetLow ∧
    (s.rejectFrame c k p).resetIn = s.resetIn ∧ (s.rejectFrame c k p).rxdIn = s.rxdIn ∧
    (s.rejectFrame c k p).dOut = s.dOut ∧ (s.rejectFrame c k p).arg = s.arg ∧
    (s.rejectFrame c k p).res = s.res ∧ (s.rejectFrame c k p).cmdStatus = s.cmdStatus ∧
    (s.rejectFrame c k p).busy = s.busy ∧ (s.rejectFrame c k p).eventEn = s.eventEn ∧
    (s.rejectFrame c k p).condEn = s.condEn ∧ (s.rejectFrame c k p).snapEvent = s.snapEvent ∧
    (s.rejectFrame c k p).snapEventEn = s.snapEventEn ∧
    (s.rejectFrame c k p).snapFree = s.snapFree ∧ (s.rejectFrame c k p).snapDiv = s.snapDiv ∧
    (s.rejectFrame c k p).snapSpacing = s.snapSpacing ∧ (s.rejectFrame c k p).chsel = s.chsel ∧
    (s.rejectFrame c k p).mem = s.mem ∧ (s.rejectFrame c k p).reserve = s.reserve ∧
    (s.rejectFrame c k p).lastRx = s.lastRx ∧ (s.rejectFrame c k p).port = s.port ∧
    (s.rejectFrame c k p).station = s.station ∧ (s.rejectFrame c k p).seqTable = s.seqTable ∧
    (s.rejectFrame c k p).rfq = s.rfq ∧ (s.rejectFrame c k p).arrival = s.arrival ∧
    (s.rejectFrame c k p).tcq = s.tcq ∧ (s.rejectFrame c k p).lastTcq = s.lastTcq ∧
    (s.rejectFrame c k p).holdLevel = s.holdLevel ∧
    (s.rejectFrame c k p).resumeLevel = s.resumeLevel ∧
    (s.rejectFrame c k p).holdTime = s.holdTime := by
  simp [State.rejectFrame]

@[simp] theorem takeDest_frame (s : State) (c : Chan) (d : Byte) :
    (s.takeDest c d).pending = s.pending ∧ (s.takeDest c d).resetLow = s.resetLow ∧
    (s.takeDest c d).resetIn = s.resetIn ∧ (s.takeDest c d).rxdIn = s.rxdIn ∧
    (s.takeDest c d).dOut = s.dOut ∧ (s.takeDest c d).arg = s.arg ∧ (s.takeDest c d).res = s.res ∧
    (s.takeDest c d).cmdStatus = s.cmdStatus ∧ (s.takeDest c d).busy = s.busy ∧
    (s.takeDest c d).eventEn = s.eventEn ∧ (s.takeDest c d).condEn = s.condEn ∧
    (s.takeDest c d).snapEvent = s.snapEvent ∧ (s.takeDest c d).snapEventEn = s.snapEventEn ∧
    (s.takeDest c d).snapFree = s.snapFree ∧ (s.takeDest c d).snapDiv = s.snapDiv ∧
    (s.takeDest c d).snapSpacing = s.snapSpacing ∧ (s.takeDest c d).chsel = s.chsel ∧
    (s.takeDest c d).mem = s.mem ∧ (s.takeDest c d).reserve = s.reserve ∧
    (s.takeDest c d).lastRx = s.lastRx ∧ (s.takeDest c d).port = s.port ∧
    (s.takeDest c d).station = s.station ∧ (s.takeDest c d).seqTable = s.seqTable ∧
    (s.takeDest c d).rfq = s.rfq ∧ (s.takeDest c d).arrival = s.arrival ∧
    (s.takeDest c d).tcq = s.tcq ∧ (s.takeDest c d).lastTcq = s.lastTcq ∧
    (s.takeDest c d).holdLevel = s.holdLevel ∧ (s.takeDest c d).resumeLevel = s.resumeLevel ∧
    (s.takeDest c d).holdTime = s.holdTime := by
  unfold State.takeDest; repeat' split
  all_goals simp

@[simp] theorem takeField_frame (s : State) (c : Chan) (b : Bool) (f : Engine → Engine) :
    (s.takeField c b f).pending = s.pending ∧ (s.takeField c b f).resetLow = s.resetLow ∧
    (s.takeField c b f).resetIn = s.resetIn ∧ (s.takeField c b f).rxdIn = s.rxdIn ∧
    (s.takeField c b f).dOut = s.dOut ∧ (s.takeField c b f).arg = s.arg ∧
    (s.takeField c b f).res = s.res ∧ (s.takeField c b f).cmdStatus = s.cmdStatus ∧
    (s.takeField c b f).busy = s.busy ∧ (s.takeField c b f).eventEn = s.eventEn ∧
    (s.takeField c b f).condEn = s.condEn ∧ (s.takeField c b f).snapEvent = s.snapEvent ∧
    (s.takeField c b f).snapEventEn = s.snapEventEn ∧ (s.takeField c b f).snapFree = s.snapFree ∧
    (s.takeField c b f).snapDiv = s.snapDiv ∧ (s.takeField c b f).snapSpacing = s.snapSpacing ∧
    (s.takeField c b f).chsel = s.chsel ∧ (s.takeField c b f).mem = s.mem ∧
    (s.takeField c b f).reserve = s.reserve ∧ (s.takeField c b f).lastRx = s.lastRx ∧
    (s.takeField c b f).port = s.port ∧ (s.takeField c b f).station = s.station ∧
    (s.takeField c b f).seqTable = s.seqTable ∧ (s.takeField c b f).rfq = s.rfq ∧
    (s.takeField c b f).arrival = s.arrival ∧ (s.takeField c b f).tcq = s.tcq ∧
    (s.takeField c b f).lastTcq = s.lastTcq ∧ (s.takeField c b f).holdLevel = s.holdLevel ∧
    (s.takeField c b f).resumeLevel = s.resumeLevel ∧
    (s.takeField c b f).holdTime = s.holdTime := by
  unfold State.takeField; split <;> simp

@[simp] theorem takePayload_frame (s : State) (c : Chan) (b : Byte) :
    (s.takePayload c b).pending = s.pending ∧ (s.takePayload c b).resetLow = s.resetLow ∧
    (s.takePayload c b).resetIn = s.resetIn ∧ (s.takePayload c b).rxdIn = s.rxdIn ∧
    (s.takePayload c b).dOut = s.dOut ∧ (s.takePayload c b).arg = s.arg ∧
    (s.takePayload c b).res = s.res ∧ (s.takePayload c b).cmdStatus = s.cmdStatus ∧
    (s.takePayload c b).busy = s.busy ∧ (s.takePayload c b).event = s.event ∧
    (s.takePayload c b).eventEn = s.eventEn ∧ (s.takePayload c b).condEn = s.condEn ∧
    (s.takePayload c b).snapEvent = s.snapEvent ∧ (s.takePayload c b).snapEventEn = s.snapEventEn ∧
    (s.takePayload c b).snapFree = s.snapFree ∧ (s.takePayload c b).snapDiv = s.snapDiv ∧
    (s.takePayload c b).snapSpacing = s.snapSpacing ∧ (s.takePayload c b).chsel = s.chsel ∧
    (s.takePayload c b).pageTable = s.pageTable ∧ (s.takePayload c b).freeList = s.freeList ∧
    (s.takePayload c b).reserve = s.reserve ∧ (s.takePayload c b).lastRx = s.lastRx ∧
    (s.takePayload c b).port = s.port ∧ (s.takePayload c b).station = s.station ∧
    (s.takePayload c b).seqTable = s.seqTable ∧ (s.takePayload c b).rfq = s.rfq ∧
    (s.takePayload c b).arrival = s.arrival ∧ (s.takePayload c b).tcq = s.tcq ∧
    (s.takePayload c b).lastTcq = s.lastTcq ∧ (s.takePayload c b).pool = s.pool ∧
    (s.takePayload c b).holdLevel = s.holdLevel ∧ (s.takePayload c b).resumeLevel = s.resumeLevel ∧
    (s.takePayload c b).holdTime = s.holdTime := by
  unfold State.takePayload; dsimp only; split <;> simp

@[simp] theorem takeCheckHi_frame (s : State) (c : Chan) (b : Byte) :
    (s.takeCheckHi c b).pending = s.pending ∧ (s.takeCheckHi c b).resetLow = s.resetLow ∧
    (s.takeCheckHi c b).resetIn = s.resetIn ∧ (s.takeCheckHi c b).rxdIn = s.rxdIn ∧
    (s.takeCheckHi c b).dOut = s.dOut ∧ (s.takeCheckHi c b).arg = s.arg ∧
    (s.takeCheckHi c b).res = s.res ∧ (s.takeCheckHi c b).cmdStatus = s.cmdStatus ∧
    (s.takeCheckHi c b).busy = s.busy ∧ (s.takeCheckHi c b).event = s.event ∧
    (s.takeCheckHi c b).eventEn = s.eventEn ∧ (s.takeCheckHi c b).condEn = s.condEn ∧
    (s.takeCheckHi c b).snapEvent = s.snapEvent ∧ (s.takeCheckHi c b).snapEventEn = s.snapEventEn ∧
    (s.takeCheckHi c b).snapFree = s.snapFree ∧ (s.takeCheckHi c b).snapDiv = s.snapDiv ∧
    (s.takeCheckHi c b).snapSpacing = s.snapSpacing ∧ (s.takeCheckHi c b).chsel = s.chsel ∧
    (s.takeCheckHi c b).mem = s.mem ∧ (s.takeCheckHi c b).pageTable = s.pageTable ∧
    (s.takeCheckHi c b).freeList = s.freeList ∧ (s.takeCheckHi c b).reserve = s.reserve ∧
    (s.takeCheckHi c b).lastRx = s.lastRx ∧ (s.takeCheckHi c b).port = s.port ∧
    (s.takeCheckHi c b).station = s.station ∧ (s.takeCheckHi c b).seqTable = s.seqTable ∧
    (s.takeCheckHi c b).rfq = s.rfq ∧ (s.takeCheckHi c b).arrival = s.arrival ∧
    (s.takeCheckHi c b).tcq = s.tcq ∧ (s.takeCheckHi c b).lastTcq = s.lastTcq ∧
    (s.takeCheckHi c b).pool = s.pool ∧ (s.takeCheckHi c b).holdLevel = s.holdLevel ∧
    (s.takeCheckHi c b).resumeLevel = s.resumeLevel ∧
    (s.takeCheckHi c b).holdTime = s.holdTime := by
  simp [State.takeCheckHi]

@[simp] theorem appendFrame_frame (s : State) (c : Chan) (h : Page) :
    (s.appendFrame c h).pending = s.pending ∧ (s.appendFrame c h).resetLow = s.resetLow ∧
    (s.appendFrame c h).resetIn = s.resetIn ∧ (s.appendFrame c h).rxdIn = s.rxdIn ∧
    (s.appendFrame c h).dOut = s.dOut ∧ (s.appendFrame c h).arg = s.arg ∧
    (s.appendFrame c h).res = s.res ∧ (s.appendFrame c h).cmdStatus = s.cmdStatus ∧
    (s.appendFrame c h).busy = s.busy ∧ (s.appendFrame c h).event = s.event ∧
    (s.appendFrame c h).eventEn = s.eventEn ∧ (s.appendFrame c h).condEn = s.condEn ∧
    (s.appendFrame c h).snapEvent = s.snapEvent ∧ (s.appendFrame c h).snapEventEn = s.snapEventEn ∧
    (s.appendFrame c h).snapFree = s.snapFree ∧ (s.appendFrame c h).snapDiv = s.snapDiv ∧
    (s.appendFrame c h).snapSpacing = s.snapSpacing ∧ (s.appendFrame c h).chsel = s.chsel ∧
    (s.appendFrame c h).freeList = s.freeList ∧ (s.appendFrame c h).reserve = s.reserve ∧
    (s.appendFrame c h).lastRx = s.lastRx ∧ (s.appendFrame c h).port = s.port ∧
    (s.appendFrame c h).station = s.station ∧ (s.appendFrame c h).seqTable = s.seqTable ∧
    (s.appendFrame c h).tcq = s.tcq ∧ (s.appendFrame c h).lastTcq = s.lastTcq ∧
    (s.appendFrame c h).pool = s.pool ∧ (s.appendFrame c h).holdLevel = s.holdLevel ∧
    (s.appendFrame c h).resumeLevel = s.resumeLevel ∧ (s.appendFrame c h).holdTime = s.holdTime ∧
    (s.appendFrame c h).chans = s.chans := by
  simp [State.appendFrame]

@[simp] theorem respondIf_frame (s : State) (c : Chan) (b nak : Bool) (e : Engine) :
    (s.respondIf c b nak e).pending = s.pending ∧ (s.respondIf c b nak e).resetLow = s.resetLow ∧
    (s.respondIf c b nak e).resetIn = s.resetIn ∧ (s.respondIf c b nak e).rxdIn = s.rxdIn ∧
    (s.respondIf c b nak e).dOut = s.dOut ∧ (s.respondIf c b nak e).arg = s.arg ∧
    (s.respondIf c b nak e).res = s.res ∧ (s.respondIf c b nak e).cmdStatus = s.cmdStatus ∧
    (s.respondIf c b nak e).busy = s.busy ∧ (s.respondIf c b nak e).eventEn = s.eventEn ∧
    (s.respondIf c b nak e).condEn = s.condEn ∧ (s.respondIf c b nak e).snapEvent = s.snapEvent ∧
    (s.respondIf c b nak e).snapEventEn = s.snapEventEn ∧
    (s.respondIf c b nak e).snapFree = s.snapFree ∧ (s.respondIf c b nak e).snapDiv = s.snapDiv ∧
    (s.respondIf c b nak e).snapSpacing = s.snapSpacing ∧ (s.respondIf c b nak e).chsel = s.chsel ∧
    (s.respondIf c b nak e).mem = s.mem ∧ (s.respondIf c b nak e).pageTable = s.pageTable ∧
    (s.respondIf c b nak e).freeList = s.freeList ∧ (s.respondIf c b nak e).reserve = s.reserve ∧
    (s.respondIf c b nak e).lastRx = s.lastRx ∧ (s.respondIf c b nak e).port = s.port ∧
    (s.respondIf c b nak e).station = s.station ∧ (s.respondIf c b nak e).seqTable = s.seqTable ∧
    (s.respondIf c b nak e).rfq = s.rfq ∧ (s.respondIf c b nak e).arrival = s.arrival ∧
    (s.respondIf c b nak e).tcq = s.tcq ∧ (s.respondIf c b nak e).lastTcq = s.lastTcq ∧
    (s.respondIf c b nak e).pool = s.pool ∧ (s.respondIf c b nak e).holdLevel = s.holdLevel ∧
    (s.respondIf c b nak e).resumeLevel = s.resumeLevel ∧
    (s.respondIf c b nak e).holdTime = s.holdTime := by
  cases b <;> simp [State.respondIf]

@[simp] theorem dataEnd_frame (s : State) (c : Chan) :
    (s.dataEnd c).pending = s.pending ∧ (s.dataEnd c).resetLow = s.resetLow ∧
    (s.dataEnd c).resetIn = s.resetIn ∧ (s.dataEnd c).rxdIn = s.rxdIn ∧
    (s.dataEnd c).dOut = s.dOut ∧ (s.dataEnd c).arg = s.arg ∧ (s.dataEnd c).res = s.res ∧
    (s.dataEnd c).cmdStatus = s.cmdStatus ∧ (s.dataEnd c).busy = s.busy ∧
    (s.dataEnd c).eventEn = s.eventEn ∧ (s.dataEnd c).condEn = s.condEn ∧
    (s.dataEnd c).snapEvent = s.snapEvent ∧ (s.dataEnd c).snapEventEn = s.snapEventEn ∧
    (s.dataEnd c).snapFree = s.snapFree ∧ (s.dataEnd c).snapDiv = s.snapDiv ∧
    (s.dataEnd c).snapSpacing = s.snapSpacing ∧ (s.dataEnd c).chsel = s.chsel ∧
    (s.dataEnd c).reserve = s.reserve ∧ (s.dataEnd c).lastRx = s.lastRx ∧
    (s.dataEnd c).port = s.port ∧ (s.dataEnd c).station = s.station ∧ (s.dataEnd c).tcq = s.tcq ∧
    (s.dataEnd c).lastTcq = s.lastTcq ∧ (s.dataEnd c).holdLevel = s.holdLevel ∧
    (s.dataEnd c).resumeLevel = s.resumeLevel ∧ (s.dataEnd c).holdTime = s.holdTime := by
  unfold State.dataEnd; dsimp only; repeat' split
  all_goals simp

@[simp] theorem holdDelivered_frame (s : State) (c : Chan) (d : Byte) :
    (s.holdDelivered c d).pending = s.pending ∧ (s.holdDelivered c d).resetLow = s.resetLow ∧
    (s.holdDelivered c d).resetIn = s.resetIn ∧ (s.holdDelivered c d).rxdIn = s.rxdIn ∧
    (s.holdDelivered c d).dOut = s.dOut ∧ (s.holdDelivered c d).arg = s.arg ∧
    (s.holdDelivered c d).res = s.res ∧ (s.holdDelivered c d).cmdStatus = s.cmdStatus ∧
    (s.holdDelivered c d).busy = s.busy ∧ (s.holdDelivered c d).eventEn = s.eventEn ∧
    (s.holdDelivered c d).condEn = s.condEn ∧ (s.holdDelivered c d).snapEvent = s.snapEvent ∧
    (s.holdDelivered c d).snapEventEn = s.snapEventEn ∧
    (s.holdDelivered c d).snapFree = s.snapFree ∧ (s.holdDelivered c d).snapDiv = s.snapDiv ∧
    (s.holdDelivered c d).snapSpacing = s.snapSpacing ∧ (s.holdDelivered c d).chsel = s.chsel ∧
    (s.holdDelivered c d).mem = s.mem ∧ (s.holdDelivered c d).pageTable = s.pageTable ∧
    (s.holdDelivered c d).freeList = s.freeList ∧ (s.holdDelivered c d).reserve = s.reserve ∧
    (s.holdDelivered c d).lastRx = s.lastRx ∧ (s.holdDelivered c d).port = s.port ∧
    (s.holdDelivered c d).station = s.station ∧ (s.holdDelivered c d).seqTable = s.seqTable ∧
    (s.holdDelivered c d).rfq = s.rfq ∧ (s.holdDelivered c d).arrival = s.arrival ∧
    (s.holdDelivered c d).tcq = s.tcq ∧ (s.holdDelivered c d).lastTcq = s.lastTcq ∧
    (s.holdDelivered c d).pool = s.pool ∧ (s.holdDelivered c d).holdLevel = s.holdLevel ∧
    (s.holdDelivered c d).resumeLevel = s.resumeLevel ∧
    (s.holdDelivered c d).holdTime = s.holdTime := by
  unfold State.holdDelivered; split <;> simp

@[simp] theorem decide_frame (s : State) (c : Chan) :
    (s.decide c).pending = s.pending ∧ (s.decide c).resetLow = s.resetLow ∧
    (s.decide c).resetIn = s.resetIn ∧ (s.decide c).rxdIn = s.rxdIn ∧ (s.decide c).dOut = s.dOut ∧
    (s.decide c).arg = s.arg ∧ (s.decide c).res = s.res ∧ (s.decide c).cmdStatus = s.cmdStatus ∧
    (s.decide c).busy = s.busy ∧ (s.decide c).eventEn = s.eventEn ∧ (s.decide c).condEn = s.condEn ∧
    (s.decide c).snapEvent = s.snapEvent ∧ (s.decide c).snapEventEn = s.snapEventEn ∧
    (s.decide c).snapFree = s.snapFree ∧ (s.decide c).snapDiv = s.snapDiv ∧
    (s.decide c).snapSpacing = s.snapSpacing ∧ (s.decide c).chsel = s.chsel ∧
    (s.decide c).reserve = s.reserve ∧ (s.decide c).lastRx = s.lastRx ∧ (s.decide c).port = s.port ∧
    (s.decide c).station = s.station ∧ (s.decide c).lastTcq = s.lastTcq ∧
    (s.decide c).holdLevel = s.holdLevel ∧ (s.decide c).resumeLevel = s.resumeLevel ∧
    (s.decide c).holdTime = s.holdTime := by
  unfold State.decide; dsimp only; repeat' split
  all_goals simp

@[simp] theorem frameEnd_frame (s : State) (c : Chan) (lo : Byte) :
    (s.frameEnd c lo).pending = s.pending ∧ (s.frameEnd c lo).resetLow = s.resetLow ∧
    (s.frameEnd c lo).resetIn = s.resetIn ∧ (s.frameEnd c lo).rxdIn = s.rxdIn ∧
    (s.frameEnd c lo).dOut = s.dOut ∧ (s.frameEnd c lo).arg = s.arg ∧
    (s.frameEnd c lo).res = s.res ∧ (s.frameEnd c lo).cmdStatus = s.cmdStatus ∧
    (s.frameEnd c lo).busy = s.busy ∧ (s.frameEnd c lo).eventEn = s.eventEn ∧
    (s.frameEnd c lo).condEn = s.condEn ∧ (s.frameEnd c lo).snapEvent = s.snapEvent ∧
    (s.frameEnd c lo).snapEventEn = s.snapEventEn ∧ (s.frameEnd c lo).snapFree = s.snapFree ∧
    (s.frameEnd c lo).snapDiv = s.snapDiv ∧ (s.frameEnd c lo).snapSpacing = s.snapSpacing ∧
    (s.frameEnd c lo).chsel = s.chsel ∧ (s.frameEnd c lo).reserve = s.reserve ∧
    (s.frameEnd c lo).lastRx = s.lastRx ∧ (s.frameEnd c lo).port = s.port ∧
    (s.frameEnd c lo).station = s.station ∧ (s.frameEnd c lo).lastTcq = s.lastTcq ∧
    (s.frameEnd c lo).holdLevel = s.holdLevel ∧ (s.frameEnd c lo).resumeLevel = s.resumeLevel ∧
    (s.frameEnd c lo).holdTime = s.holdTime := by
  unfold State.frameEnd; dsimp only; split <;> simp

@[simp] theorem takeNext_frame (s : State) (c : Chan) (b : Byte) :
    (s.takeNext c b).pending = s.pending ∧ (s.takeNext c b).resetLow = s.resetLow ∧
    (s.takeNext c b).resetIn = s.resetIn ∧ (s.takeNext c b).rxdIn = s.rxdIn ∧
    (s.takeNext c b).dOut = s.dOut ∧ (s.takeNext c b).arg = s.arg ∧ (s.takeNext c b).res = s.res ∧
    (s.takeNext c b).cmdStatus = s.cmdStatus ∧ (s.takeNext c b).busy = s.busy ∧
    (s.takeNext c b).eventEn = s.eventEn ∧ (s.takeNext c b).condEn = s.condEn ∧
    (s.takeNext c b).snapEvent = s.snapEvent ∧ (s.takeNext c b).snapEventEn = s.snapEventEn ∧
    (s.takeNext c b).snapFree = s.snapFree ∧ (s.takeNext c b).snapDiv = s.snapDiv ∧
    (s.takeNext c b).snapSpacing = s.snapSpacing ∧ (s.takeNext c b).chsel = s.chsel ∧
    (s.takeNext c b).reserve = s.reserve ∧ (s.takeNext c b).lastRx = s.lastRx ∧
    (s.takeNext c b).port = s.port ∧ (s.takeNext c b).station = s.station ∧
    (s.takeNext c b).lastTcq = s.lastTcq ∧ (s.takeNext c b).holdLevel = s.holdLevel ∧
    (s.takeNext c b).resumeLevel = s.resumeLevel ∧ (s.takeNext c b).holdTime = s.holdTime := by
  unfold State.takeNext; dsimp only; repeat' split
  all_goals simp [State.takeSrc, State.takeCtrl, State.takeLen]

@[simp] theorem engineTake_frame (s : State) (c : Chan) (x : Character) :
    (s.engineTake c x).pending = s.pending ∧ (s.engineTake c x).resetLow = s.resetLow ∧
    (s.engineTake c x).resetIn = s.resetIn ∧ (s.engineTake c x).rxdIn = s.rxdIn ∧
    (s.engineTake c x).dOut = s.dOut ∧ (s.engineTake c x).arg = s.arg ∧
    (s.engineTake c x).res = s.res ∧ (s.engineTake c x).cmdStatus = s.cmdStatus ∧
    (s.engineTake c x).busy = s.busy ∧ (s.engineTake c x).eventEn = s.eventEn ∧
    (s.engineTake c x).condEn = s.condEn ∧ (s.engineTake c x).snapEvent = s.snapEvent ∧
    (s.engineTake c x).snapEventEn = s.snapEventEn ∧ (s.engineTake c x).snapFree = s.snapFree ∧
    (s.engineTake c x).snapDiv = s.snapDiv ∧ (s.engineTake c x).snapSpacing = s.snapSpacing ∧
    (s.engineTake c x).chsel = s.chsel ∧ (s.engineTake c x).reserve = s.reserve ∧
    (s.engineTake c x).lastRx = s.lastRx ∧ (s.engineTake c x).port = s.port ∧
    (s.engineTake c x).station = s.station ∧ (s.engineTake c x).lastTcq = s.lastTcq ∧
    (s.engineTake c x).holdLevel = s.holdLevel ∧ (s.engineTake c x).resumeLevel = s.resumeLevel ∧
    (s.engineTake c x).holdTime = s.holdTime := by
  unfold State.engineTake; dsimp only; repeat' split
  all_goals simp

@[simp] theorem flowClean_frame (s : State) (c : Chan) :
    (s.flowClean c).pending = s.pending ∧ (s.flowClean c).resetLow = s.resetLow ∧
    (s.flowClean c).resetIn = s.resetIn ∧ (s.flowClean c).rxdIn = s.rxdIn ∧
    (s.flowClean c).dOut = s.dOut ∧ (s.flowClean c).arg = s.arg ∧ (s.flowClean c).res = s.res ∧
    (s.flowClean c).cmdStatus = s.cmdStatus ∧ (s.flowClean c).busy = s.busy ∧
    (s.flowClean c).eventEn = s.eventEn ∧ (s.flowClean c).condEn = s.condEn ∧
    (s.flowClean c).snapEvent = s.snapEvent ∧ (s.flowClean c).snapEventEn = s.snapEventEn ∧
    (s.flowClean c).snapFree = s.snapFree ∧ (s.flowClean c).snapDiv = s.snapDiv ∧
    (s.flowClean c).snapSpacing = s.snapSpacing ∧ (s.flowClean c).chsel = s.chsel ∧
    (s.flowClean c).mem = s.mem ∧ (s.flowClean c).pageTable = s.pageTable ∧
    (s.flowClean c).freeList = s.freeList ∧ (s.flowClean c).reserve = s.reserve ∧
    (s.flowClean c).lastRx = s.lastRx ∧ (s.flowClean c).port = s.port ∧
    (s.flowClean c).station = s.station ∧ (s.flowClean c).seqTable = s.seqTable ∧
    (s.flowClean c).rfq = s.rfq ∧ (s.flowClean c).arrival = s.arrival ∧
    (s.flowClean c).tcq = s.tcq ∧ (s.flowClean c).lastTcq = s.lastTcq ∧
    (s.flowClean c).pool = s.pool ∧ (s.flowClean c).holdLevel = s.holdLevel ∧
    (s.flowClean c).resumeLevel = s.resumeLevel ∧ (s.flowClean c).holdTime = s.holdTime := by
  unfold State.flowClean; split <;> simp

@[simp] theorem dropFlow_frame (s : State) (c : Chan) :
    (s.dropFlow c).pending = s.pending ∧ (s.dropFlow c).resetLow = s.resetLow ∧
    (s.dropFlow c).resetIn = s.resetIn ∧ (s.dropFlow c).rxdIn = s.rxdIn ∧
    (s.dropFlow c).dOut = s.dOut ∧ (s.dropFlow c).arg = s.arg ∧ (s.dropFlow c).res = s.res ∧
    (s.dropFlow c).cmdStatus = s.cmdStatus ∧ (s.dropFlow c).busy = s.busy ∧
    (s.dropFlow c).eventEn = s.eventEn ∧ (s.dropFlow c).condEn = s.condEn ∧
    (s.dropFlow c).snapEvent = s.snapEvent ∧ (s.dropFlow c).snapEventEn = s.snapEventEn ∧
    (s.dropFlow c).snapFree = s.snapFree ∧ (s.dropFlow c).snapDiv = s.snapDiv ∧
    (s.dropFlow c).snapSpacing = s.snapSpacing ∧ (s.dropFlow c).chsel = s.chsel ∧
    (s.dropFlow c).mem = s.mem ∧ (s.dropFlow c).pageTable = s.pageTable ∧
    (s.dropFlow c).freeList = s.freeList ∧ (s.dropFlow c).reserve = s.reserve ∧
    (s.dropFlow c).lastRx = s.lastRx ∧ (s.dropFlow c).port = s.port ∧
    (s.dropFlow c).station = s.station ∧ (s.dropFlow c).seqTable = s.seqTable ∧
    (s.dropFlow c).rfq = s.rfq ∧ (s.dropFlow c).arrival = s.arrival ∧ (s.dropFlow c).tcq = s.tcq ∧
    (s.dropFlow c).lastTcq = s.lastTcq ∧ (s.dropFlow c).pool = s.pool ∧
    (s.dropFlow c).holdLevel = s.holdLevel ∧ (s.dropFlow c).resumeLevel = s.resumeLevel ∧
    (s.dropFlow c).holdTime = s.holdTime := by
  simp [State.dropFlow]

@[simp] theorem flowCollision_frame (s : State) (c : Chan) :
    (s.flowCollision c).pending = s.pending ∧ (s.flowCollision c).resetLow = s.resetLow ∧
    (s.flowCollision c).resetIn = s.resetIn ∧ (s.flowCollision c).rxdIn = s.rxdIn ∧
    (s.flowCollision c).dOut = s.dOut ∧ (s.flowCollision c).arg = s.arg ∧
    (s.flowCollision c).res = s.res ∧ (s.flowCollision c).cmdStatus = s.cmdStatus ∧
    (s.flowCollision c).busy = s.busy ∧ (s.flowCollision c).eventEn = s.eventEn ∧
    (s.flowCollision c).condEn = s.condEn ∧ (s.flowCollision c).snapEvent = s.snapEvent ∧
    (s.flowCollision c).snapEventEn = s.snapEventEn ∧ (s.flowCollision c).snapFree = s.snapFree ∧
    (s.flowCollision c).snapDiv = s.snapDiv ∧ (s.flowCollision c).snapSpacing = s.snapSpacing ∧
    (s.flowCollision c).chsel = s.chsel ∧ (s.flowCollision c).mem = s.mem ∧
    (s.flowCollision c).pageTable = s.pageTable ∧ (s.flowCollision c).freeList = s.freeList ∧
    (s.flowCollision c).reserve = s.reserve ∧ (s.flowCollision c).lastRx = s.lastRx ∧
    (s.flowCollision c).port = s.port ∧ (s.flowCollision c).station = s.station ∧
    (s.flowCollision c).seqTable = s.seqTable ∧ (s.flowCollision c).rfq = s.rfq ∧
    (s.flowCollision c).arrival = s.arrival ∧ (s.flowCollision c).tcq = s.tcq ∧
    (s.flowCollision c).lastTcq = s.lastTcq ∧ (s.flowCollision c).pool = s.pool ∧
    (s.flowCollision c).holdLevel = s.holdLevel ∧ (s.flowCollision c).resumeLevel = s.resumeLevel ∧
    (s.flowCollision c).holdTime = s.holdTime := by
  unfold State.flowCollision; repeat' split
  all_goals simp

@[simp] theorem startBit_frame (s : State) (c : Chan) :
    (s.startBit c).pending = s.pending ∧ (s.startBit c).resetLow = s.resetLow ∧
    (s.startBit c).resetIn = s.resetIn ∧ (s.startBit c).rxdIn = s.rxdIn ∧
    (s.startBit c).dOut = s.dOut ∧ (s.startBit c).arg = s.arg ∧ (s.startBit c).res = s.res ∧
    (s.startBit c).cmdStatus = s.cmdStatus ∧ (s.startBit c).busy = s.busy ∧
    (s.startBit c).eventEn = s.eventEn ∧ (s.startBit c).condEn = s.condEn ∧
    (s.startBit c).snapEvent = s.snapEvent ∧ (s.startBit c).snapEventEn = s.snapEventEn ∧
    (s.startBit c).snapFree = s.snapFree ∧ (s.startBit c).snapDiv = s.snapDiv ∧
    (s.startBit c).snapSpacing = s.snapSpacing ∧ (s.startBit c).chsel = s.chsel ∧
    (s.startBit c).mem = s.mem ∧ (s.startBit c).pageTable = s.pageTable ∧
    (s.startBit c).freeList = s.freeList ∧ (s.startBit c).reserve = s.reserve ∧
    (s.startBit c).lastRx = s.lastRx ∧ (s.startBit c).port = s.port ∧
    (s.startBit c).station = s.station ∧ (s.startBit c).seqTable = s.seqTable ∧
    (s.startBit c).rfq = s.rfq ∧ (s.startBit c).arrival = s.arrival ∧ (s.startBit c).tcq = s.tcq ∧
    (s.startBit c).lastTcq = s.lastTcq ∧ (s.startBit c).pool = s.pool ∧
    (s.startBit c).holdLevel = s.holdLevel ∧ (s.startBit c).resumeLevel = s.resumeLevel ∧
    (s.startBit c).holdTime = s.holdTime := by
  simp [State.startBit]

@[simp] theorem reportClean_frame (s : State) (c : Chan) (k : TxKind) :
    (s.reportClean c k).pending = s.pending ∧ (s.reportClean c k).resetLow = s.resetLow ∧
    (s.reportClean c k).resetIn = s.resetIn ∧ (s.reportClean c k).rxdIn = s.rxdIn ∧
    (s.reportClean c k).dOut = s.dOut ∧ (s.reportClean c k).arg = s.arg ∧
    (s.reportClean c k).res = s.res ∧ (s.reportClean c k).cmdStatus = s.cmdStatus ∧
    (s.reportClean c k).busy = s.busy ∧ (s.reportClean c k).eventEn = s.eventEn ∧
    (s.reportClean c k).condEn = s.condEn ∧ (s.reportClean c k).snapEvent = s.snapEvent ∧
    (s.reportClean c k).snapEventEn = s.snapEventEn ∧ (s.reportClean c k).snapFree = s.snapFree ∧
    (s.reportClean c k).snapDiv = s.snapDiv ∧ (s.reportClean c k).snapSpacing = s.snapSpacing ∧
    (s.reportClean c k).chsel = s.chsel ∧ (s.reportClean c k).mem = s.mem ∧
    (s.reportClean c k).reserve = s.reserve ∧ (s.reportClean c k).lastRx = s.lastRx ∧
    (s.reportClean c k).port = s.port ∧ (s.reportClean c k).station = s.station ∧
    (s.reportClean c k).seqTable = s.seqTable ∧ (s.reportClean c k).rfq = s.rfq ∧
    (s.reportClean c k).arrival = s.arrival ∧ (s.reportClean c k).lastTcq = s.lastTcq ∧
    (s.reportClean c k).holdLevel = s.holdLevel ∧ (s.reportClean c k).resumeLevel = s.resumeLevel ∧
    (s.reportClean c k).holdTime = s.holdTime := by
  cases k <;> simp [State.reportClean]

@[simp] theorem readback_frame (s : State) (c : Chan) (f : Sending) (x : Character) :
    (s.readback c f x).pending = s.pending ∧ (s.readback c f x).resetLow = s.resetLow ∧
    (s.readback c f x).resetIn = s.resetIn ∧ (s.readback c f x).rxdIn = s.rxdIn ∧
    (s.readback c f x).dOut = s.dOut ∧ (s.readback c f x).arg = s.arg ∧
    (s.readback c f x).res = s.res ∧ (s.readback c f x).cmdStatus = s.cmdStatus ∧
    (s.readback c f x).busy = s.busy ∧ (s.readback c f x).eventEn = s.eventEn ∧
    (s.readback c f x).condEn = s.condEn ∧ (s.readback c f x).snapEvent = s.snapEvent ∧
    (s.readback c f x).snapEventEn = s.snapEventEn ∧ (s.readback c f x).snapFree = s.snapFree ∧
    (s.readback c f x).snapDiv = s.snapDiv ∧ (s.readback c f x).snapSpacing = s.snapSpacing ∧
    (s.readback c f x).chsel = s.chsel ∧ (s.readback c f x).mem = s.mem ∧
    (s.readback c f x).reserve = s.reserve ∧ (s.readback c f x).lastRx = s.lastRx ∧
    (s.readback c f x).port = s.port ∧ (s.readback c f x).station = s.station ∧
    (s.readback c f x).seqTable = s.seqTable ∧ (s.readback c f x).rfq = s.rfq ∧
    (s.readback c f x).arrival = s.arrival ∧ (s.readback c f x).lastTcq = s.lastTcq ∧
    (s.readback c f x).holdLevel = s.holdLevel ∧ (s.readback c f x).resumeLevel = s.resumeLevel ∧
    (s.readback c f x).holdTime = s.holdTime := by
  unfold State.readback; dsimp only; repeat' split
  all_goals simp

@[simp] theorem completeCharacter_frame (s : State) (c : Chan) (x : Character) :
    (s.completeCharacter c x).pending = s.pending ∧
    (s.completeCharacter c x).resetLow = s.resetLow ∧
    (s.completeCharacter c x).resetIn = s.resetIn ∧ (s.completeCharacter c x).rxdIn = s.rxdIn ∧
    (s.completeCharacter c x).dOut = s.dOut ∧ (s.completeCharacter c x).arg = s.arg ∧
    (s.completeCharacter c x).res = s.res ∧ (s.completeCharacter c x).cmdStatus = s.cmdStatus ∧
    (s.completeCharacter c x).busy = s.busy ∧ (s.completeCharacter c x).eventEn = s.eventEn ∧
    (s.completeCharacter c x).condEn = s.condEn ∧
    (s.completeCharacter c x).snapEvent = s.snapEvent ∧
    (s.completeCharacter c x).snapEventEn = s.snapEventEn ∧
    (s.completeCharacter c x).snapFree = s.snapFree ∧
    (s.completeCharacter c x).snapDiv = s.snapDiv ∧
    (s.completeCharacter c x).snapSpacing = s.snapSpacing ∧
    (s.completeCharacter c x).chsel = s.chsel ∧ (s.completeCharacter c x).reserve = s.reserve ∧
    (s.completeCharacter c x).lastRx = s.lastRx ∧ (s.completeCharacter c x).port = s.port ∧
    (s.completeCharacter c x).station = s.station ∧ (s.completeCharacter c x).lastTcq = s.lastTcq ∧
    (s.completeCharacter c x).holdLevel = s.holdLevel ∧
    (s.completeCharacter c x).resumeLevel = s.resumeLevel ∧
    (s.completeCharacter c x).holdTime = s.holdTime := by
  unfold State.completeCharacter; dsimp only; split <;> simp

@[simp] theorem beforeCharacter_frame (s : State) (c : Chan) :
    (s.beforeCharacter c).pending = s.pending ∧ (s.beforeCharacter c).resetLow = s.resetLow ∧
    (s.beforeCharacter c).resetIn = s.resetIn ∧ (s.beforeCharacter c).rxdIn = s.rxdIn ∧
    (s.beforeCharacter c).dOut = s.dOut ∧ (s.beforeCharacter c).arg = s.arg ∧
    (s.beforeCharacter c).res = s.res ∧ (s.beforeCharacter c).cmdStatus = s.cmdStatus ∧
    (s.beforeCharacter c).busy = s.busy ∧ (s.beforeCharacter c).eventEn = s.eventEn ∧
    (s.beforeCharacter c).condEn = s.condEn ∧ (s.beforeCharacter c).snapEvent = s.snapEvent ∧
    (s.beforeCharacter c).snapEventEn = s.snapEventEn ∧
    (s.beforeCharacter c).snapFree = s.snapFree ∧ (s.beforeCharacter c).snapDiv = s.snapDiv ∧
    (s.beforeCharacter c).snapSpacing = s.snapSpacing ∧ (s.beforeCharacter c).chsel = s.chsel ∧
    (s.beforeCharacter c).mem = s.mem ∧ (s.beforeCharacter c).reserve = s.reserve ∧
    (s.beforeCharacter c).port = s.port ∧ (s.beforeCharacter c).station = s.station ∧
    (s.beforeCharacter c).seqTable = s.seqTable ∧ (s.beforeCharacter c).rfq = s.rfq ∧
    (s.beforeCharacter c).arrival = s.arrival ∧ (s.beforeCharacter c).tcq = s.tcq ∧
    (s.beforeCharacter c).lastTcq = s.lastTcq ∧ (s.beforeCharacter c).holdLevel = s.holdLevel ∧
    (s.beforeCharacter c).resumeLevel = s.resumeLevel ∧
    (s.beforeCharacter c).holdTime = s.holdTime := by
  unfold State.beforeCharacter; split <;> simp

@[simp] theorem receiveCharacter_frame (s : State) (c : Chan) (x : Character) :
    (s.receiveCharacter c x).pending = s.pending ∧ (s.receiveCharacter c x).resetLow = s.resetLow ∧
    (s.receiveCharacter c x).resetIn = s.resetIn ∧ (s.receiveCharacter c x).rxdIn = s.rxdIn ∧
    (s.receiveCharacter c x).dOut = s.dOut ∧ (s.receiveCharacter c x).arg = s.arg ∧
    (s.receiveCharacter c x).res = s.res ∧ (s.receiveCharacter c x).cmdStatus = s.cmdStatus ∧
    (s.receiveCharacter c x).busy = s.busy ∧ (s.receiveCharacter c x).eventEn = s.eventEn ∧
    (s.receiveCharacter c x).condEn = s.condEn ∧ (s.receiveCharacter c x).snapEvent = s.snapEvent ∧
    (s.receiveCharacter c x).snapEventEn = s.snapEventEn ∧
    (s.receiveCharacter c x).snapFree = s.snapFree ∧ (s.receiveCharacter c x).snapDiv = s.snapDiv ∧
    (s.receiveCharacter c x).snapSpacing = s.snapSpacing ∧
    (s.receiveCharacter c x).chsel = s.chsel ∧ (s.receiveCharacter c x).reserve = s.reserve ∧
    (s.receiveCharacter c x).port = s.port ∧ (s.receiveCharacter c x).station = s.station ∧
    (s.receiveCharacter c x).lastTcq = s.lastTcq ∧
    (s.receiveCharacter c x).holdLevel = s.holdLevel ∧
    (s.receiveCharacter c x).resumeLevel = s.resumeLevel ∧
    (s.receiveCharacter c x).holdTime = s.holdTime := by
  unfold State.receiveCharacter; dsimp only; split <;> simp

@[simp] theorem lineCharacter_frame (s : State) (c : Chan) (x : Character) :
    (s.lineCharacter c x).pending = s.pending ∧ (s.lineCharacter c x).resetLow = s.resetLow ∧
    (s.lineCharacter c x).resetIn = s.resetIn ∧ (s.lineCharacter c x).rxdIn = s.rxdIn ∧
    (s.lineCharacter c x).dOut = s.dOut ∧ (s.lineCharacter c x).arg = s.arg ∧
    (s.lineCharacter c x).res = s.res ∧ (s.lineCharacter c x).cmdStatus = s.cmdStatus ∧
    (s.lineCharacter c x).busy = s.busy ∧ (s.lineCharacter c x).eventEn = s.eventEn ∧
    (s.lineCharacter c x).condEn = s.condEn ∧ (s.lineCharacter c x).snapEvent = s.snapEvent ∧
    (s.lineCharacter c x).snapEventEn = s.snapEventEn ∧
    (s.lineCharacter c x).snapFree = s.snapFree ∧ (s.lineCharacter c x).snapDiv = s.snapDiv ∧
    (s.lineCharacter c x).snapSpacing = s.snapSpacing ∧ (s.lineCharacter c x).chsel = s.chsel ∧
    (s.lineCharacter c x).reserve = s.reserve ∧ (s.lineCharacter c x).port = s.port ∧
    (s.lineCharacter c x).station = s.station ∧ (s.lineCharacter c x).lastTcq = s.lastTcq ∧
    (s.lineCharacter c x).holdLevel = s.holdLevel ∧
    (s.lineCharacter c x).resumeLevel = s.resumeLevel ∧
    (s.lineCharacter c x).holdTime = s.holdTime := by
  unfold State.lineCharacter; dsimp only; repeat' split
  all_goals simp

@[simp] theorem startFrame_frame (s : State) (c : Chan) (k : TxKind) (l : List Byte) :
    (s.startFrame c k l).pending = s.pending ∧ (s.startFrame c k l).resetLow = s.resetLow ∧
    (s.startFrame c k l).resetIn = s.resetIn ∧ (s.startFrame c k l).rxdIn = s.rxdIn ∧
    (s.startFrame c k l).dOut = s.dOut ∧ (s.startFrame c k l).arg = s.arg ∧
    (s.startFrame c k l).res = s.res ∧ (s.startFrame c k l).cmdStatus = s.cmdStatus ∧
    (s.startFrame c k l).busy = s.busy ∧ (s.startFrame c k l).event = s.event ∧
    (s.startFrame c k l).eventEn = s.eventEn ∧ (s.startFrame c k l).condEn = s.condEn ∧
    (s.startFrame c k l).snapEvent = s.snapEvent ∧
    (s.startFrame c k l).snapEventEn = s.snapEventEn ∧ (s.startFrame c k l).snapFree = s.snapFree ∧
    (s.startFrame c k l).snapDiv = s.snapDiv ∧ (s.startFrame c k l).snapSpacing = s.snapSpacing ∧
    (s.startFrame c k l).chsel = s.chsel ∧ (s.startFrame c k l).mem = s.mem ∧
    (s.startFrame c k l).pageTable = s.pageTable ∧ (s.startFrame c k l).freeList = s.freeList ∧
    (s.startFrame c k l).reserve = s.reserve ∧ (s.startFrame c k l).lastRx = s.lastRx ∧
    (s.startFrame c k l).port = s.port ∧ (s.startFrame c k l).station = s.station ∧
    (s.startFrame c k l).seqTable = s.seqTable ∧ (s.startFrame c k l).rfq = s.rfq ∧
    (s.startFrame c k l).arrival = s.arrival ∧ (s.startFrame c k l).tcq = s.tcq ∧
    (s.startFrame c k l).lastTcq = s.lastTcq ∧ (s.startFrame c k l).pool = s.pool ∧
    (s.startFrame c k l).holdLevel = s.holdLevel ∧
    (s.startFrame c k l).resumeLevel = s.resumeLevel ∧
    (s.startFrame c k l).holdTime = s.holdTime := by
  simp [State.startFrame]

@[simp] theorem reportCollision_frame (s : State) (c : Chan) (k : TxKind) :
    (s.reportCollision c k).pending = s.pending ∧ (s.reportCollision c k).resetLow = s.resetLow ∧
    (s.reportCollision c k).resetIn = s.resetIn ∧ (s.reportCollision c k).rxdIn = s.rxdIn ∧
    (s.reportCollision c k).dOut = s.dOut ∧ (s.reportCollision c k).arg = s.arg ∧
    (s.reportCollision c k).res = s.res ∧ (s.reportCollision c k).cmdStatus = s.cmdStatus ∧
    (s.reportCollision c k).busy = s.busy ∧ (s.reportCollision c k).eventEn = s.eventEn ∧
    (s.reportCollision c k).condEn = s.condEn ∧ (s.reportCollision c k).snapEvent = s.snapEvent ∧
    (s.reportCollision c k).snapEventEn = s.snapEventEn ∧
    (s.reportCollision c k).snapFree = s.snapFree ∧ (s.reportCollision c k).snapDiv = s.snapDiv ∧
    (s.reportCollision c k).snapSpacing = s.snapSpacing ∧ (s.reportCollision c k).chsel = s.chsel ∧
    (s.reportCollision c k).mem = s.mem ∧ (s.reportCollision c k).reserve = s.reserve ∧
    (s.reportCollision c k).lastRx = s.lastRx ∧ (s.reportCollision c k).port = s.port ∧
    (s.reportCollision c k).station = s.station ∧ (s.reportCollision c k).seqTable = s.seqTable ∧
    (s.reportCollision c k).rfq = s.rfq ∧ (s.reportCollision c k).arrival = s.arrival ∧
    (s.reportCollision c k).lastTcq = s.lastTcq ∧ (s.reportCollision c k).holdLevel = s.holdLevel ∧
    (s.reportCollision c k).resumeLevel = s.resumeLevel ∧
    (s.reportCollision c k).holdTime = s.holdTime := by
  cases k <;> simp [State.reportCollision]

@[simp] theorem abortFinish_frame (s : State) (c : Chan) :
    (s.abortFinish c).pending = s.pending ∧ (s.abortFinish c).resetLow = s.resetLow ∧
    (s.abortFinish c).resetIn = s.resetIn ∧ (s.abortFinish c).rxdIn = s.rxdIn ∧
    (s.abortFinish c).dOut = s.dOut ∧ (s.abortFinish c).arg = s.arg ∧
    (s.abortFinish c).res = s.res ∧ (s.abortFinish c).eventEn = s.eventEn ∧
    (s.abortFinish c).condEn = s.condEn ∧ (s.abortFinish c).snapEvent = s.snapEvent ∧
    (s.abortFinish c).snapEventEn = s.snapEventEn ∧ (s.abortFinish c).snapFree = s.snapFree ∧
    (s.abortFinish c).snapDiv = s.snapDiv ∧ (s.abortFinish c).snapSpacing = s.snapSpacing ∧
    (s.abortFinish c).chsel = s.chsel ∧ (s.abortFinish c).mem = s.mem ∧
    (s.abortFinish c).reserve = s.reserve ∧ (s.abortFinish c).lastRx = s.lastRx ∧
    (s.abortFinish c).port = s.port ∧ (s.abortFinish c).station = s.station ∧
    (s.abortFinish c).seqTable = s.seqTable ∧ (s.abortFinish c).rfq = s.rfq ∧
    (s.abortFinish c).arrival = s.arrival ∧ (s.abortFinish c).lastTcq = s.lastTcq ∧
    (s.abortFinish c).holdLevel = s.holdLevel ∧ (s.abortFinish c).resumeLevel = s.resumeLevel ∧
    (s.abortFinish c).holdTime = s.holdTime := by
  unfold State.abortFinish; dsimp only; split <;> simp

@[simp] theorem abortStart_frame (s : State) (c : Chan) :
    (s.abortStart c).pending = s.pending ∧ (s.abortStart c).resetLow = s.resetLow ∧
    (s.abortStart c).resetIn = s.resetIn ∧ (s.abortStart c).rxdIn = s.rxdIn ∧
    (s.abortStart c).dOut = s.dOut ∧ (s.abortStart c).arg = s.arg ∧ (s.abortStart c).res = s.res ∧
    (s.abortStart c).cmdStatus = s.cmdStatus ∧ (s.abortStart c).busy = s.busy ∧
    (s.abortStart c).eventEn = s.eventEn ∧ (s.abortStart c).condEn = s.condEn ∧
    (s.abortStart c).snapEvent = s.snapEvent ∧ (s.abortStart c).snapEventEn = s.snapEventEn ∧
    (s.abortStart c).snapFree = s.snapFree ∧ (s.abortStart c).snapDiv = s.snapDiv ∧
    (s.abortStart c).snapSpacing = s.snapSpacing ∧ (s.abortStart c).chsel = s.chsel ∧
    (s.abortStart c).mem = s.mem ∧ (s.abortStart c).reserve = s.reserve ∧
    (s.abortStart c).lastRx = s.lastRx ∧ (s.abortStart c).port = s.port ∧
    (s.abortStart c).station = s.station ∧ (s.abortStart c).seqTable = s.seqTable ∧
    (s.abortStart c).rfq = s.rfq ∧ (s.abortStart c).arrival = s.arrival ∧
    (s.abortStart c).lastTcq = s.lastTcq ∧ (s.abortStart c).holdLevel = s.holdLevel ∧
    (s.abortStart c).resumeLevel = s.resumeLevel ∧ (s.abortStart c).holdTime = s.holdTime := by
  unfold State.abortStart; dsimp only; split <;> simp

@[simp] theorem releaseAll_frame (s : State) (l : List TxEntry) :
    (s.releaseAll l).pending = s.pending ∧ (s.releaseAll l).resetLow = s.resetLow ∧
    (s.releaseAll l).resetIn = s.resetIn ∧ (s.releaseAll l).rxdIn = s.rxdIn ∧
    (s.releaseAll l).dOut = s.dOut ∧ (s.releaseAll l).arg = s.arg ∧ (s.releaseAll l).res = s.res ∧
    (s.releaseAll l).cmdStatus = s.cmdStatus ∧ (s.releaseAll l).busy = s.busy ∧
    (s.releaseAll l).eventEn = s.eventEn ∧ (s.releaseAll l).condEn = s.condEn ∧
    (s.releaseAll l).snapEvent = s.snapEvent ∧ (s.releaseAll l).snapEventEn = s.snapEventEn ∧
    (s.releaseAll l).snapFree = s.snapFree ∧ (s.releaseAll l).snapDiv = s.snapDiv ∧
    (s.releaseAll l).snapSpacing = s.snapSpacing ∧ (s.releaseAll l).chsel = s.chsel ∧
    (s.releaseAll l).mem = s.mem ∧ (s.releaseAll l).reserve = s.reserve ∧
    (s.releaseAll l).lastRx = s.lastRx ∧ (s.releaseAll l).port = s.port ∧
    (s.releaseAll l).station = s.station ∧ (s.releaseAll l).seqTable = s.seqTable ∧
    (s.releaseAll l).rfq = s.rfq ∧ (s.releaseAll l).arrival = s.arrival ∧
    (s.releaseAll l).tcq = s.tcq ∧ (s.releaseAll l).lastTcq = s.lastTcq ∧
    (s.releaseAll l).holdLevel = s.holdLevel ∧ (s.releaseAll l).resumeLevel = s.resumeLevel ∧
    (s.releaseAll l).holdTime = s.holdTime := by
  induction l generalizing s with
  | nil => simp [State.releaseAll]
  | cons b bs ih => unfold State.releaseAll; simp [ih]

@[simp] theorem servePlace_frame (s : State) :
    (s.servePlace).pending = s.pending ∧ (s.servePlace).resetLow = s.resetLow ∧
    (s.servePlace).resetIn = s.resetIn ∧ (s.servePlace).rxdIn = s.rxdIn ∧
    (s.servePlace).dOut = s.dOut ∧ (s.servePlace).arg = s.arg ∧ (s.servePlace).res = s.res ∧
    (s.servePlace).cmdStatus = s.cmdStatus ∧ (s.servePlace).busy = s.busy ∧
    (s.servePlace).eventEn = s.eventEn ∧ (s.servePlace).condEn = s.condEn ∧
    (s.servePlace).snapEvent = s.snapEvent ∧ (s.servePlace).snapEventEn = s.snapEventEn ∧
    (s.servePlace).snapFree = s.snapFree ∧ (s.servePlace).snapDiv = s.snapDiv ∧
    (s.servePlace).snapSpacing = s.snapSpacing ∧ (s.servePlace).chsel = s.chsel ∧
    (s.servePlace).mem = s.mem ∧ (s.servePlace).reserve = s.reserve ∧
    (s.servePlace).lastRx = s.lastRx ∧ (s.servePlace).port = s.port ∧
    (s.servePlace).station = s.station ∧ (s.servePlace).seqTable = s.seqTable ∧
    (s.servePlace).rfq = s.rfq ∧ (s.servePlace).arrival = s.arrival ∧
    (s.servePlace).holdLevel = s.holdLevel ∧ (s.servePlace).resumeLevel = s.resumeLevel ∧
    (s.servePlace).holdTime = s.holdTime := by
  unfold State.servePlace; repeat' split
  all_goals simp

@[simp] theorem portAdvance_frame (s : State) :
    (s.portAdvance).pending = s.pending ∧ (s.portAdvance).resetLow = s.resetLow ∧
    (s.portAdvance).resetIn = s.resetIn ∧ (s.portAdvance).rxdIn = s.rxdIn ∧
    (s.portAdvance).dOut = s.dOut ∧ (s.portAdvance).arg = s.arg ∧ (s.portAdvance).res = s.res ∧
    (s.portAdvance).cmdStatus = s.cmdStatus ∧ (s.portAdvance).busy = s.busy ∧
    (s.portAdvance).event = s.event ∧ (s.portAdvance).eventEn = s.eventEn ∧
    (s.portAdvance).condEn = s.condEn ∧ (s.portAdvance).snapEvent = s.snapEvent ∧
    (s.portAdvance).snapEventEn = s.snapEventEn ∧ (s.portAdvance).snapFree = s.snapFree ∧
    (s.portAdvance).snapDiv = s.snapDiv ∧ (s.portAdvance).snapSpacing = s.snapSpacing ∧
    (s.portAdvance).chsel = s.chsel ∧ (s.portAdvance).mem = s.mem ∧
    (s.portAdvance).pageTable = s.pageTable ∧ (s.portAdvance).freeList = s.freeList ∧
    (s.portAdvance).reserve = s.reserve ∧ (s.portAdvance).lastRx = s.lastRx ∧
    (s.portAdvance).station = s.station ∧ (s.portAdvance).seqTable = s.seqTable ∧
    (s.portAdvance).rfq = s.rfq ∧ (s.portAdvance).arrival = s.arrival ∧
    (s.portAdvance).tcq = s.tcq ∧ (s.portAdvance).lastTcq = s.lastTcq ∧
    (s.portAdvance).pool = s.pool ∧ (s.portAdvance).holdLevel = s.holdLevel ∧
    (s.portAdvance).resumeLevel = s.resumeLevel ∧ (s.portAdvance).holdTime = s.holdTime ∧
    (s.portAdvance).chans = s.chans := by
  unfold State.portAdvance; split <;> simp

end Sys2Proof.Machine.State
end

