-- ==== Sys2Proof/Laws/Sparse.lean ====
section
/-!
SUPPORT. Sparse tables, frame memory and the page table: what is read after a store, and that every
store keeps the canonical form.
-/
namespace Sys2Proof.Machine

namespace Sparse

variable {β : Type} {d : β}

theorem find_of_lt {l : List (Nat × β)} {a : Nat} (h : ∀ x ∈ l, a < x.1) : find d l a = d := by
  induction l with
  | nil => rfl
  | cons x t ih =>
    have hx := h x List.mem_cons_self
    have : a ≠ x.1 := by omega
    simp only [find, if_neg this]
    exact ih fun y hy => h y (List.mem_cons_of_mem _ hy)

theorem wf_cons {k : Nat} {w : β} {t : List (Nat × β)} :
    wf d ((k, w) :: t) ↔ (∀ x ∈ t, k < x.1) ∧ w ≠ d ∧ wf d t := by
  simp only [wf, List.map_cons, List.pairwise_cons, List.mem_cons, List.mem_map]
  constructor
  · rintro ⟨⟨h1, h2⟩, h3⟩
    exact ⟨fun x hx => h1 x.1 ⟨x, hx, rfl⟩, h3 (k, w) (Or.inl rfl), h2, fun x hx => h3 x (Or.inr hx)⟩
  · rintro ⟨h1, h2, h3, h4⟩
    refine ⟨⟨?_, h3⟩, ?_⟩
    · rintro _ ⟨x, hx, rfl⟩
      exact h1 x hx
    · rintro x (rfl | hx)
      · exact h2
      · exact h4 x hx

theorem wf_nil : wf d ([] : List (Nat × β)) := by simp [wf]

variable [DecidableEq β]

/-- What a store leaves listed: nothing but the entries before and the one stored. -/
theorem mem_store {l : List (Nat × β)} {a : Nat} {v : β} {x : Nat × β} (h : x ∈ store d l a v) :
    x ∈ l ∨ x = (a, v) := by
  induction l with
  | nil =>
    simp only [store] at h
    split at h <;> simp_all
  | cons y t ih =>
    obtain ⟨k, w⟩ := y
    simp only [store] at h
    repeat' split at h
    all_goals simp_all
    all_goals grind

/-- A store keeps the canonical form. -/
theorem wf_store {l : List (Nat × β)} (a : Nat) (v : β) (h : wf d l) : wf d (store d l a v) := by
  induction l with
  | nil =>
    simp only [store]
    split
    · exact wf_nil
    · next hv => exact wf_cons.2 ⟨by simp, hv, wf_nil⟩
  | cons y t ih =>
    obtain ⟨k, w⟩ := y
    obtain ⟨h1, h2, h3⟩ := wf_cons.1 h
    simp only [store]
    split
    · next hlt =>
      split
      · exact h
      · next hv =>
        refine wf_cons.2 ⟨?_, hv, h⟩
        intro x hx
        rcases List.mem_cons.1 hx with rfl | hx
        · exact hlt
        · exact Nat.lt_trans hlt (h1 x hx)
    · split
      · next heq =>
        subst heq
        split
        · exact h3
        · next hv => exact wf_cons.2 ⟨h1, hv, h3⟩
      · refine wf_cons.2 ⟨?_, h2, ih h3⟩
        intro x hx
        rcases mem_store hx with hx | rfl
        · exact h1 x hx
        · show k < a
          omega

/-- What is found after a store in a table in canonical form. -/
theorem find_store {l : List (Nat × β)} (a : Nat) (v : β) (h : wf d l) (b : Nat) :
    find d (store d l a v) b = if b = a then v else find d l b := by
  induction l with
  | nil =>
    by_cases hv : v = d <;> by_cases hb : b = a <;> simp [store, find, hv, hb]
  | cons y t ih =>
    obtain ⟨k, w⟩ := y
    obtain ⟨h1, h2, h3⟩ := wf_cons.1 h
    simp only [store]
    split
    · next hlt =>
      split
      · next hv =>
        split
        · next hb =>
          subst hb
          rw [hv]
          apply find_of_lt
          intro x hx
          rcases List.mem_cons.1 hx with rfl | hx
          · exact hlt
          · exact Nat.lt_trans hlt (h1 x hx)
        · rfl
      · rfl
    · split
      · next heq =>
        subst heq
        split
        · next hv =>
          split
          · next hb =>
            subst hb
            rw [hv]
            exact find_of_lt h1
          · next hb => simp [find, hb]
        · by_cases hb : b = a <;> simp [find, hb]
      · next hne =>
        by_cases hb : b = k
        · subst hb
          have : ¬ b = a := fun e => hne e.symm
          simp [find, this]
        · simp [find, hb, ih h3]

theorem find_store_same {l : List (Nat × β)} (a : Nat) (v : β) (h : wf d l) :
    find d (store d l a v) a = v := by rw [find_store a v h, if_pos rfl]

theorem find_store_ne {l : List (Nat × β)} {a b : Nat} (v : β) (h : wf d l) (hb : b ≠ a) :
    find d (store d l a v) b = find d l b := by rw [find_store a v h, if_neg hb]

omit [DecidableEq β] in
/-- Tables in canonical form that read alike are equal. -/
theorem ext_wf {l m : List (Nat × β)} (hl : wf d l) (hm : wf d m)
    (h : ∀ a, find d l a = find d m a) : l = m := by
  induction l generalizing m with
  | nil =>
    cases m with
    | nil => rfl
    | cons y t =>
      obtain ⟨k, w⟩ := y
      have := h k
      simp only [find, if_pos] at this
      exact absurd this.symm (wf_cons.1 hm).2.1
  | cons x t ih =>
    obtain ⟨k, w⟩ := x
    obtain ⟨h1, h2, h3⟩ := wf_cons.1 hl
    cases m with
    | nil =>
      have := h k
      simp only [find, if_pos] at this
      exact absurd this h2
    | cons y u =>
      obtain ⟨k', w'⟩ := y
      obtain ⟨g1, g2, g3⟩ := wf_cons.1 hm
      have hk : k = k' := by
        rcases Nat.lt_trichotomy k k' with hlt | heq | hlt
        · exfalso
          have := h k
          simp only [find, if_pos, if_neg (Nat.ne_of_lt hlt)] at this
          rw [find_of_lt fun x hx => Nat.lt_trans hlt (g1 x hx)] at this
          exact h2 this
        · exact heq
        · exfalso
          have := h k'
          simp only [find, if_pos, if_neg (Nat.ne_of_lt hlt)] at this
          rw [find_of_lt fun x hx => Nat.lt_trans hlt (h1 x hx)] at this
          exact g2 this.symm
      subst hk
      have hw : w = w' := by simpa [find] using h k
      subst hw
      congr 1
      apply ih h3 g3
      intro a
      by_cases ha : a = k
      · subst ha
        rw [find_of_lt h1, find_of_lt g1]
      · simpa [find, ha] using h a

end Sparse

/-! ### Frame memory -/

theorem Memory.wf_nil : Memory.wf [] := Sparse.wf_nil

theorem Memory.wf_write {m : Memory} (h : m.wf) (a : Nat) (v : Byte) : (m.write a v).wf :=
  Sparse.wf_store a v h

theorem Memory.read_write {m : Memory} (h : m.wf) (a : Nat) (v : Byte) (b : Nat) :
    (m.write a v).read b = if b = a then v else m.read b := Sparse.find_store a v h b

theorem State.wf_storeChain {s : State} (hm : s.mem.wf) (h : Page) (off : Nat) (v : Byte) :
    (s.storeChain h off v).mem.wf := by
  unfold State.storeChain
  split
  · exact Memory.wf_write hm _ _
  · exact hm

theorem State.wf_storeBytes {s : State} (hm : s.mem.wf) (h : Page) (off : Nat) (l : List Byte) :
    (s.storeBytes h off l).mem.wf := by
  induction l generalizing s off with
  | nil => exact hm
  | cons b bs ih => exact ih (State.wf_storeChain hm h off b) (off + 1)

/-! ### The page table -/

theorem PageTable.wf_put {t : PageTable} (h : t.wf) (p : Page) (r : PageRecord) : (t.put p r).wf :=
  Sparse.wf_store _ _ h

theorem PageTable.record_put {t : PageTable} (h : t.wf) (p : Page) (r : PageRecord) (q : Page) :
    (t.put p r).record q = if q = p then r else t.record q := by
  unfold PageTable.record PageTable.put
  rw [Sparse.find_store _ _ h]
  simp only [BitVec.toNat_inj]

theorem PageTable.wf_link {t : PageTable} (o : Owner) (b : Bool) (ps : List Page) (h : t.wf) :
    (PageTable.link o b ps t).wf := by
  induction ps generalizing b t with
  | nil => exact h
  | cons p ps ih => exact ih false (PageTable.wf_put h _ _)

theorem PageTable.wf_release {t : PageTable} (ps : List Page) (h : t.wf) : (t.release ps).wf := by
  unfold PageTable.release
  induction ps generalizing t with
  | nil => exact h
  | cons p ps ih => exact ih (PageTable.wf_put h _ _)

theorem PageTable.wf_own {t : PageTable} (o : Owner) (ps : List Page) (h : t.wf) :
    (t.own o ps).wf := by
  unfold PageTable.own
  induction ps generalizing t with
  | nil => exact h
  | cons p ps ih => exact ih (PageTable.wf_put h _ _)

/-- The records after a release. -/
theorem PageTable.record_release {t : PageTable} (ps : List Page) (h : t.wf) (q : Page) :
    (t.release ps).record q = if q ∈ ps then PageRecord.free else t.record q := by
  unfold PageTable.release
  induction ps generalizing t with
  | nil => simp
  | cons p ps ih =>
    simp only [List.foldl_cons, List.mem_cons]
    rw [ih (PageTable.wf_put h _ _), PageTable.record_put h]
    by_cases hq : q ∈ ps <;> by_cases hp : q = p <;> simp [hq, hp]

/-- The records after a change of holder. -/
theorem PageTable.record_own {t : PageTable} (o : Owner) (ps : List Page) (h : t.wf) (q : Page) :
    (t.own o ps).record q = if q ∈ ps then { t.record q with owner := o } else t.record q := by
  unfold PageTable.own
  induction ps generalizing t with
  | nil => simp
  | cons p ps ih =>
    simp only [List.foldl_cons, List.mem_cons]
    rw [ih (PageTable.wf_put h _ _), PageTable.record_put h]
    by_cases hq : q ∈ ps <;> by_cases hp : q = p <;> simp [hq, hp]

/-- The records of a chain as a grant links it. -/
theorem PageTable.record_link {t : PageTable} (o : Owner) (b : Bool) {ps : List Page} (h : t.wf)
    (hn : ps.Nodup) (q : Page) :
    (q ∉ ps → (PageTable.link o b ps t).record q = t.record q) ∧
    ∀ i, ps[i]? = some q →
      (PageTable.link o b ps t).record q = ⟨o, b && i == 0, ps[i + 1]?⟩ := by
  induction ps generalizing b t with
  | nil => simp [PageTable.link]
  | cons p ps ih =>
    obtain ⟨hp, hn⟩ := List.nodup_cons.1 hn
    have hw := PageTable.wf_put h p ⟨o, b, ps.head?⟩
    have := ih false hw hn
    constructor
    · intro hq
      simp only [List.mem_cons, not_or] at hq
      rw [PageTable.link, this.1 hq.2, PageTable.record_put h, if_neg hq.1]
    · intro i hi
      cases i with
      | zero =>
        simp only [List.getElem?_cons_zero, Option.some.injEq] at hi
        subst hi
        rw [PageTable.link, this.1 hp, PageTable.record_put h, if_pos rfl]
        simp [List.head?_eq_getElem?]
      | succ i =>
        simp only [List.getElem?_cons_succ] at hi
        rw [PageTable.link, this.2 i hi]
        simp

/-- Links decide a walk: tables whose links agree on its pages walk alike. -/
theorem PageTable.walk_congr {t u : PageTable} (n : Nat) (p : Page)
    (h : ∀ q ∈ t.walk n p, (u.record q).link = (t.record q).link) : u.walk n p = t.walk n p := by
  induction n generalizing p with
  | zero => rfl
  | succ n ih =>
    have hp : (u.record p).link = (t.record p).link := h p (by simp [PageTable.walk])
    simp only [PageTable.walk, hp]
    cases hl : (t.record p).link with
    | none => rfl
    | some q =>
      have := ih q fun x hx => h x (by simp [PageTable.walk, hl, hx])
      simp [this]

/-- A change of holder changes no walk. -/
theorem PageTable.walk_own {t : PageTable} (o : Owner) (ps : List Page) (h : t.wf) (n : Nat)
    (p : Page) : (t.own o ps).walk n p = t.walk n p := by
  apply PageTable.walk_congr
  intro q _
  rw [PageTable.record_own o ps h]
  split <;> rfl

theorem State.chainPages_setOwner {s : State} (h : Page) (o : Owner) (hw : s.pageTable.wf) (p : Page) :
    (s.setOwner h o).chainPages p = s.chainPages p := PageTable.walk_own o _ hw _ p

/-- The walk along pages as a grant links them. -/
theorem PageTable.walk_link {t : PageTable} (o : Owner) (b : Bool) {ps : List Page} (h : t.wf)
    (hn : ps.Nodup) (n i : Nat) (p : Page) (hi : ps[i]? = some p) :
    (PageTable.link o b ps t).walk n p = (ps.drop i).take n := by
  induction n generalizing i p with
  | zero => simp [PageTable.walk]
  | succ n ih =>
    have hr := (PageTable.record_link o b h hn p).2 i hi
    have hd : ps.drop i = p :: ps.drop (i + 1) := by
      obtain ⟨hlt, he⟩ := List.getElem?_eq_some_iff.1 hi
      rw [List.drop_eq_getElem_cons hlt, he]
    simp only [PageTable.walk, hr]
    rw [hd, List.take_succ_cons]
    congr 1
    cases hq : ps[i + 1]? with
    | none =>
      have : ps.length ≤ i + 1 := List.getElem?_eq_none_iff.1 hq
      simp [List.drop_eq_nil_of_le this]
    | some q => exact ih (i + 1) q hq

end Sys2Proof.Machine
end

