-- ==== Sys2Proof/Laws/Channels.lean ====
section
/-!
SUPPORT. Channels under the shared operations: what a change of the free count, a count and an entry
into OFF do to a channel, and to the other channels.
-/
namespace Sys2Proof.Machine

/-! ### The pool monitor -/

theorem Channel.enterLow_eq (ch : Channel) : ch.enterLow = { ch with flow := ch.enterLow.flow } := by
  unfold Channel.enterLow
  repeat' split
  all_goals rfl

theorem Channel.enterNormal_eq (ch : Channel) :
    ch.enterNormal = { ch with flow := ch.enterNormal.flow, refresh := none } := by
  unfold Channel.enterNormal
  repeat' split
  all_goals rfl

/-- A change of the free count changes at most the flow slot and the refresh timer of a channel. -/
theorem State.poolJudge_chan (s : State) (c : Chan) :
    s.poolJudge.chan c =
      { s.chan c with
        flow := (s.poolJudge.chan c).flow, refresh := (s.poolJudge.chan c).refresh } := by
  unfold State.poolJudge
  split <;> split
  · simp only [State.chan, State.raise_chans, Quad.get_map]
    rw [Channel.enterLow_eq]
  · rfl
  · simp only [State.chan, State.raise_chans, Quad.get_map]
    rw [Channel.enterNormal_eq]
  · rfl

/-- The channel of a state whose chains have changed and whose free count has been judged. -/
theorem State.grant_chan (s : State) (o : Owner) (n : Nat) (c : Chan) :
    (s.grant o n).chan c =
      { s.chan c with
        flow := ((s.grant o n).chan c).flow, refresh := ((s.grant o n).chan c).refresh } :=
  State.poolJudge_chan _ c

theorem State.release_chan (s : State) (h : Page) (c : Chan) :
    (s.release h).chan c =
      { s.chan c with
        flow := ((s.release h).chan c).flow, refresh := ((s.release h).chan c).refresh } :=
  State.poolJudge_chan _ c

@[simp] theorem State.poolJudge_chan_frame (s : State) (c : Chan) :
    (s.poolJudge.chan c).ownAddr = (s.chan c).ownAddr ∧ (s.poolJudge.chan c).div = (s.chan c).div ∧
    (s.poolJudge.chan c).flags = (s.chan c).flags ∧
    (s.poolJudge.chan c).spacing = (s.chan c).spacing ∧
    (s.poolJudge.chan c).gapLim = (s.chan c).gapLim ∧
    (s.poolJudge.chan c).retry = (s.chan c).retry ∧
    (s.poolJudge.chan c).backoff = (s.chan c).backoff ∧
    (s.poolJudge.chan c).ackTo = (s.chan c).ackTo ∧
    (s.poolJudge.chan c).busyDly = (s.chan c).busyDly ∧
    (s.poolJudge.chan c).mode = (s.chan c).mode ∧
    (s.poolJudge.chan c).latchedDiv = (s.chan c).latchedDiv ∧
    (s.poolJudge.chan c).latchedTwoStop = (s.chan c).latchedTwoStop ∧
    (s.poolJudge.chan c).prescale = (s.chan c).prescale ∧
    (s.poolJudge.chan c).counters = (s.chan c).counters ∧
    (s.poolJudge.chan c).rxd = (s.chan c).rxd ∧ (s.poolJudge.chan c).rx = (s.chan c).rx ∧
    (s.poolJudge.chan c).rxTicks = (s.chan c).rxTicks ∧
    (s.poolJudge.chan c).rxBits = (s.chan c).rxBits ∧
    (s.poolJudge.chan c).lowPeriod = (s.chan c).lowPeriod ∧
    (s.poolJudge.chan c).idle = (s.chan c).idle ∧
    (s.poolJudge.chan c).idleRunning = (s.chan c).idleRunning ∧
    (s.poolJudge.chan c).idlePhase = (s.chan c).idlePhase ∧
    (s.poolJudge.chan c).engine = (s.chan c).engine ∧
    (s.poolJudge.chan c).response = (s.chan c).response ∧
    (s.poolJudge.chan c).txq = (s.chan c).txq ∧
    (s.poolJudge.chan c).seqCounter = (s.chan c).seqCounter ∧
    (s.poolJudge.chan c).sequencer = (s.chan c).sequencer ∧
    (s.poolJudge.chan c).lineTx = (s.chan c).lineTx ∧
    (s.poolJudge.chan c).holdOutstanding = (s.chan c).holdOutstanding ∧
    (s.poolJudge.chan c).holdTimer = (s.chan c).holdTimer := by
  rw [State.poolJudge_chan s c]; simp

@[simp] theorem State.grant_chan_frame (s : State) (o : Owner) (n : Nat) (c : Chan) :
    ((s.grant o n).chan c).ownAddr = (s.chan c).ownAddr ∧
    ((s.grant o n).chan c).div = (s.chan c).div ∧ ((s.grant o n).chan c).flags = (s.chan c).flags ∧
    ((s.grant o n).chan c).spacing = (s.chan c).spacing ∧
    ((s.grant o n).chan c).gapLim = (s.chan c).gapLim ∧
    ((s.grant o n).chan c).retry = (s.chan c).retry ∧
    ((s.grant o n).chan c).backoff = (s.chan c).backoff ∧
    ((s.grant o n).chan c).ackTo = (s.chan c).ackTo ∧
    ((s.grant o n).chan c).busyDly = (s.chan c).busyDly ∧
    ((s.grant o n).chan c).mode = (s.chan c).mode ∧
    ((s.grant o n).chan c).latchedDiv = (s.chan c).latchedDiv ∧
    ((s.grant o n).chan c).latchedTwoStop = (s.chan c).latchedTwoStop ∧
    ((s.grant o n).chan c).prescale = (s.chan c).prescale ∧
    ((s.grant o n).chan c).counters = (s.chan c).counters ∧
    ((s.grant o n).chan c).rxd = (s.chan c).rxd ∧ ((s.grant o n).chan c).rx = (s.chan c).rx ∧
    ((s.grant o n).chan c).rxTicks = (s.chan c).rxTicks ∧
    ((s.grant o n).chan c).rxBits = (s.chan c).rxBits ∧
    ((s.grant o n).chan c).lowPeriod = (s.chan c).lowPeriod ∧
    ((s.grant o n).chan c).idle = (s.chan c).idle ∧
    ((s.grant o n).chan c).idleRunning = (s.chan c).idleRunning ∧
    ((s.grant o n).chan c).idlePhase = (s.chan c).idlePhase ∧
    ((s.grant o n).chan c).engine = (s.chan c).engine ∧
    ((s.grant o n).chan c).response = (s.chan c).response ∧
    ((s.grant o n).chan c).txq = (s.chan c).txq ∧
    ((s.grant o n).chan c).seqCounter = (s.chan c).seqCounter ∧
    ((s.grant o n).chan c).sequencer = (s.chan c).sequencer ∧
    ((s.grant o n).chan c).lineTx = (s.chan c).lineTx ∧
    ((s.grant o n).chan c).holdOutstanding = (s.chan c).holdOutstanding ∧
    ((s.grant o n).chan c).holdTimer = (s.chan c).holdTimer := by
  rw [State.grant_chan s o n c]; simp

@[simp] theorem State.release_chan_frame (s : State) (h : Page) (c : Chan) :
    ((s.release h).chan c).ownAddr = (s.chan c).ownAddr ∧
    ((s.release h).chan c).div = (s.chan c).div ∧ ((s.release h).chan c).flags = (s.chan c).flags ∧
    ((s.release h).chan c).spacing = (s.chan c).spacing ∧
    ((s.release h).chan c).gapLim = (s.chan c).gapLim ∧
    ((s.release h).chan c).retry = (s.chan c).retry ∧
    ((s.release h).chan c).backoff = (s.chan c).backoff ∧
    ((s.release h).chan c).ackTo = (s.chan c).ackTo ∧
    ((s.release h).chan c).busyDly = (s.chan c).busyDly ∧
    ((s.release h).chan c).mode = (s.chan c).mode ∧
    ((s.release h).chan c).latchedDiv = (s.chan c).latchedDiv ∧
    ((s.release h).chan c).latchedTwoStop = (s.chan c).latchedTwoStop ∧
    ((s.release h).chan c).prescale = (s.chan c).prescale ∧
    ((s.release h).chan c).counters = (s.chan c).counters ∧
    ((s.release h).chan c).rxd = (s.chan c).rxd ∧ ((s.release h).chan c).rx = (s.chan c).rx ∧
    ((s.release h).chan c).rxTicks = (s.chan c).rxTicks ∧
    ((s.release h).chan c).rxBits = (s.chan c).rxBits ∧
    ((s.release h).chan c).lowPeriod = (s.chan c).lowPeriod ∧
    ((s.release h).chan c).idle = (s.chan c).idle ∧
    ((s.release h).chan c).idleRunning = (s.chan c).idleRunning ∧
    ((s.release h).chan c).idlePhase = (s.chan c).idlePhase ∧
    ((s.release h).chan c).engine = (s.chan c).engine ∧
    ((s.release h).chan c).response = (s.chan c).response ∧
    ((s.release h).chan c).txq = (s.chan c).txq ∧
    ((s.release h).chan c).seqCounter = (s.chan c).seqCounter ∧
    ((s.release h).chan c).sequencer = (s.chan c).sequencer ∧
    ((s.release h).chan c).lineTx = (s.chan c).lineTx ∧
    ((s.release h).chan c).holdOutstanding = (s.chan c).holdOutstanding ∧
    ((s.release h).chan c).holdTimer = (s.chan c).holdTimer := by
  rw [State.release_chan s h c]; simp

/-! ### Counts, entry into OFF -/

theorem State.count_chan (s : State) (c d : Chan) (k : Counter) :
    (s.count c k).chan d = if d = c then Channel.counted k (s.chan c) else s.chan d := by
  rw [State.count, State.raiseIf_eq]
  exact State.chan_updChan s c d _

@[simp] theorem State.count_chan_frame (s : State) (c d : Chan) (k : Counter) :
    ((s.count c k).chan d).ownAddr = (s.chan d).ownAddr ∧
    ((s.count c k).chan d).div = (s.chan d).div ∧ ((s.count c k).chan d).flags = (s.chan d).flags ∧
    ((s.count c k).chan d).spacing = (s.chan d).spacing ∧
    ((s.count c k).chan d).gapLim = (s.chan d).gapLim ∧
    ((s.count c k).chan d).retry = (s.chan d).retry ∧
    ((s.count c k).chan d).backoff = (s.chan d).backoff ∧
    ((s.count c k).chan d).ackTo = (s.chan d).ackTo ∧
    ((s.count c k).chan d).busyDly = (s.chan d).busyDly ∧
    ((s.count c k).chan d).mode = (s.chan d).mode ∧
    ((s.count c k).chan d).latchedDiv = (s.chan d).latchedDiv ∧
    ((s.count c k).chan d).latchedTwoStop = (s.chan d).latchedTwoStop ∧
    ((s.count c k).chan d).prescale = (s.chan d).prescale ∧
    ((s.count c k).chan d).rxd = (s.chan d).rxd ∧ ((s.count c k).chan d).rx = (s.chan d).rx ∧
    ((s.count c k).chan d).rxTicks = (s.chan d).rxTicks ∧
    ((s.count c k).chan d).rxBits = (s.chan d).rxBits ∧
    ((s.count c k).chan d).lowPeriod = (s.chan d).lowPeriod ∧
    ((s.count c k).chan d).idle = (s.chan d).idle ∧
    ((s.count c k).chan d).idleRunning = (s.chan d).idleRunning ∧
    ((s.count c k).chan d).idlePhase = (s.chan d).idlePhase ∧
    ((s.count c k).chan d).engine = (s.chan d).engine ∧
    ((s.count c k).chan d).response = (s.chan d).response ∧
    ((s.count c k).chan d).txq = (s.chan d).txq ∧
    ((s.count c k).chan d).seqCounter = (s.chan d).seqCounter ∧
    ((s.count c k).chan d).sequencer = (s.chan d).sequencer ∧
    ((s.count c k).chan d).lineTx = (s.chan d).lineTx ∧
    ((s.count c k).chan d).flow = (s.chan d).flow ∧
    ((s.count c k).chan d).holdOutstanding = (s.chan d).holdOutstanding ∧
    ((s.count c k).chan d).refresh = (s.chan d).refresh ∧
    ((s.count c k).chan d).holdTimer = (s.chan d).holdTimer := by
  rw [State.count_chan]
  split
  · next h => subst h; simp [Channel.counted]
  · simp

theorem State.settle_chan (s : State) (c : Chan) : s.settle.chan c = (s.chan c).settle := by
  simp [State.settle, State.raiseIf_eq, State.chan]

/-- The channels that stop are those whose conditions hold. -/
theorem Channel.stopReady_iff (ch : Channel) : ch.stopReady = true ↔ ch.MayStop := by
  simp [Channel.stopReady, Channel.MayStop, and_assoc]

theorem State.settled_settle (s : State) : s.settle.Settled := by
  intro c
  rw [State.settle_chan]
  unfold Channel.settle
  cases h : (s.chan c).stopReady
  · simp [h]
  · simp [Channel.stopReady, Channel.toOff]

/-- With no channel to stop, testing the conditions changes nothing. -/
theorem State.settle_of_settled {s : State} (h : s.Settled) : s.settle = s := by
  have h1 : s.chans.any Channel.stopReady = false := by
    rw [← Bool.not_eq_true, Quad.any_iff]
    rintro ⟨c, hc⟩
    exact absurd hc (by rw [show (s.chans.get c).stopReady = false from h c]; simp)
  have h2 : s.chans.map Channel.settle = s.chans := Quad.map_eq_self fun c => by
    rw [Channel.settle, show (s.chans.get c).stopReady = false from h c]
    rfl
  simp [State.settle, h1, h2]

/-- Testing the conditions a second time changes nothing. -/
@[simp] theorem State.settle_settle (s : State) : s.settle.settle = s.settle :=
  State.settle_of_settled s.settled_settle

/-! ### Named changes, by channel -/

theorem State.setLine_chan (s : State) (c d : Chan) (l : LineTx) :
    (s.setLine c l).chan d = if d = c then { s.chan c with lineTx := l } else s.chan d :=
  State.chan_updChan s c d _

theorem State.updEngine_chan (s : State) (c d : Chan) (f : Engine → Engine) :
    (s.updEngine c f).chan d =
      if d = c then { s.chan c with engine := f (s.chan c).engine } else s.chan d :=
  State.chan_updChan s c d _

theorem State.updSeq_chan (s : State) (c d : Chan) (f : Sequencer → Sequencer) :
    (s.updSeq c f).chan d =
      if d = c then { s.chan c with sequencer := f (s.chan c).sequencer } else s.chan d :=
  State.chan_updChan s c d _

theorem State.endFrame_chan (s : State) (c d : Chan) (p : Parser) :
    (s.endFrame c p).chan d =
      if d = c then { s.chan c with engine := Engine.idle p } else s.chan d :=
  State.chan_updChan s c d _

/-- A change of a channel is decided by what it does at the channel's value. -/
theorem State.updChan_congr {s : State} {c : Chan} {f g : Channel → Channel}
    (h : f (s.chan c) = g (s.chan c)) : s.updChan c f = s.updChan c g := by
  simp only [State.updChan]
  rw [show f (s.chans.get c) = g (s.chans.get c) from h]

theorem Quad.set_get {α : Type} (q : Quad α) (c : Chan) : q.set c (q.get c) = q := by
  match c with
  | 0 => rfl
  | 1 => rfl
  | 2 => rfl
  | 3 => rfl

theorem Quad.set_set {α : Type} (q : Quad α) (c : Chan) (x y : α) : (q.set c x).set c y = q.set c y := by
  match c with
  | 0 => rfl
  | 1 => rfl
  | 2 => rfl
  | 3 => rfl

/-- A change that leaves the channel's value leaves the part. -/
theorem State.updChan_id {s : State} {c : Chan} {f : Channel → Channel}
    (h : f (s.chan c) = s.chan c) : s.updChan c f = s := by
  simp only [State.updChan]
  rw [show f (s.chans.get c) = s.chans.get c from h, Quad.set_get]

/-- Two changes of one channel are one change. -/
theorem State.updChan_updChan (s : State) (c : Chan) (f g : Channel → Channel) :
    (s.updChan c f).updChan c g = s.updChan c fun ch => g (f ch) := by
  simp only [State.updChan, Quad.set_set, Quad.get_set_same]

/-! ### Operands -/

theorem chanArg_of_ge {b : Byte} (h : 4 ≤ b.toNat) : chanArg b = none := by
  simp [chanArg, Nat.not_lt.2 h]

theorem chanArg_of_eq {b : Byte} {c : Chan} (h : c.val = b.toNat) : chanArg b = some c := by
  simp [chanArg, ← h]

theorem stationArg_of_ge {b : Byte} (h : 16 ≤ b.toNat) : stationArg b = none := by
  simp [stationArg, Nat.not_lt.2 h]

theorem stationArg_of_eq {b : Byte} {i : Fin 16} (h : i.val = b.toNat) : stationArg b = some i := by
  simp [stationArg, ← h]

/-- An access with RESET# high does what it does. -/
theorem State.access_of_high {s : State} (h : s.resetLow = false) (f : State → State) :
    s.access f = f s := by simp [State.access, h]

/-- An access with RESET# low does nothing. -/
theorem State.access_of_low {s : State} (h : s.resetLow = true) (f : State → State) :
    s.access f = s := by simp [State.access, h]

/-- A strobe with RESET# high and the command unit free runs its command. -/
theorem State.strobe_of_free {s : State} (hr : s.resetLow = false) (h : s.busy = none)
    (f : State → State) : s.strobe f = f s := by simp [State.strobe, State.access, hr, h]

theorem State.done_eq_completed (s : State) (k : StatusCode) : s.done k = s.completed k := rfl

theorem Channel.inService_of {ch : Channel} (h : ch.mode = .run ∨ ch.mode = .stopping) :
    ch.inService = true := by
  rcases h with h | h <;> simp [Channel.inService, h]

/-! ### Rotations -/

theorem nextAfter_none {c : Chan} {p : Chan → Bool} (h : ∀ d, p d = false) : nextAfter c p = none := by
  simp [nextAfter, h]

/-- The first of the rotation after `l` that passes a test. -/
theorem nextAfter_some {l c : Chan} {p : Chan → Bool} (hc : p c = true)
    (h : ∀ d, d - (l + 1) < c - (l + 1) → p d = false) : nextAfter l p = some c := by
  have key : ∀ (l c : Chan) (b0 b1 b2 b3 : Bool), Quad.get ⟨b0, b1, b2, b3⟩ c = true →
      (∀ d : Chan, d - (l + 1) < c - (l + 1) → Quad.get ⟨b0, b1, b2, b3⟩ d = false) →
      nextAfter l (Quad.get ⟨b0, b1, b2, b3⟩) = some c := by decide
  have e : p = Quad.get ⟨p 0, p 1, p 2, p 3⟩ := by
    funext d
    match d with
    | 0 => rfl
    | 1 => rfl
    | 2 => rfl
    | 3 => rfl
  rw [e] at hc h ⊢
  exact key l c _ _ _ _ hc h

theorem State.serveOne_of_none {s : State} (h : s.NoRequests) : s.serveOne = s := by
  unfold State.serveOne
  rw [nextAfter_none]
  intro d
  simp [State.hasRequest, h d]

theorem State.serveOne_of_next {s : State} {c : Chan} {n : Nat} (h : s.NextRequest c n) :
    s.serveOne = (s.serveRequest c n).settle := by
  obtain ⟨h1, h2⟩ := h
  unfold State.serveOne
  rw [nextAfter_some (c := c) (by simp [State.hasRequest, h1])
    (fun d hd => by simp [State.hasRequest, h2 d hd])]
  simp [h1]

/-! ### Result registers -/

theorem State.loadRes_res (s : State) (i : Nat) (l : List Byte) (j : Nat) (hj : j < 8) :
    (s.loadRes i l).res[j] = if i ≤ j then (l[j - i]?).getD s.res[j] else s.res[j] := by
  have ne : ∀ (s : State) (i : Fin 8) (b : Byte), i.val ≠ j → (s.setRes i b).res[j] = s.res[j] := by
    intro s i b h
    simp [State.setRes_res, h]
  induction l generalizing s i with
  | nil => simp [State.loadRes]
  | cons b bs ih =>
    rw [State.loadRes, ih]
    by_cases h1 : i + 1 ≤ j
    · have e : j - i = (j - (i + 1)) + 1 := by omega
      rw [if_pos h1, if_pos (by omega), e, List.getElem?_cons_succ]
      split
      · rw [ne]; simp; omega
      · rfl
    · rw [if_neg h1]
      by_cases h2 : i ≤ j
      · have : i = j := by omega
        subst this
        simp [hj]
      · rw [if_neg h2]
        split
        · rw [ne]; simp; omega
        · rfl

theorem State.loadRes_eq (s : State) (i : Nat) (l : List Byte) :
    s.loadRes i l = { s with res := (s.loadRes i l).res } := by
  apply State.ext <;> simp

end Sys2Proof.Machine
end

