-- ==== Sys2Proof/Laws/Clock.lean ====
section
/-!
SUPPORT. What one sample tick does to each part of a channel, said once: a claim about time cites these
lemmas and does not unfold the clock.
-/
namespace Sys2Proof.Machine

/-- The samples of the data bits and of the marker bit (R3). -/
theorem isBitSample_iff (t : Nat) : isBitSample t = true ↔ t % 16 = 8 ∧ t < 168 := by
  rw [isBitSample, Bool.and_eq_true, beq_iff_eq, decide_eq_true_eq]
  rfl

/-- The receiver's tick changes the receiver alone. -/
theorem Channel.tickReceiver_frame (ch : Channel) :
    ch.tickReceiver =
      { ch with
        rx := ch.tickReceiver.rx, rxTicks := ch.tickReceiver.rxTicks
        rxBits := ch.tickReceiver.rxBits } := by
  unfold Channel.tickReceiver
  cases ch.rx <;> simp only <;> (try split) <;> rfl

/-- A sample changes the receiver and the low period alone. -/
theorem Channel.tickSample_frame (ch : Channel) :
    ch.tickSample =
      { ch with
        rx := ch.tickReceiver.rx, rxTicks := ch.tickReceiver.rxTicks
        rxBits := ch.tickReceiver.rxBits, lowPeriod := ch.lowSampled } := by
  rw [Channel.tickSample, Channel.tickReceiver_frame]

/-- The idle counter's tick changes line idle time alone. -/
theorem Channel.tickIdle_frame (ch : Channel) :
    ch.tickIdle = { ch with idle := ch.tickIdle.idle, idlePhase := ch.tickIdle.idlePhase } := by
  unfold Channel.tickIdle
  split
  · split <;> rfl
  · rfl

/-- The line transmitter's tick changes the line transmitter alone. -/
theorem Channel.tickLine_frame (ch : Channel) :
    ch.tickLine = { ch with lineTx := ch.tickLine.lineTx } := by
  obtain ⟨_⟩ := ch
  unfold Channel.tickLine
  dsimp only
  split
  · rfl
  · split
    · rfl
    · split <;> rfl

/-- Line idle time's tick reads line idle time alone. -/
theorem Channel.tickIdle_congr (a b : Channel) (h1 : a.idle = b.idle)
    (h2 : a.idleRunning = b.idleRunning) (h3 : a.idlePhase = b.idlePhase) :
    a.tickIdle.idle = b.tickIdle.idle ∧ a.tickIdle.idlePhase = b.tickIdle.idlePhase := by
  unfold Channel.tickIdle
  rw [h1, h2, h3]
  split
  · split <;> simp
  · simp [h1, h3]

/-- The line transmitter's tick reads the line transmitter, the channel's state and its stop bits. -/
theorem Channel.tickLine_congr (a b : Channel) (h1 : a.lineTx = b.lineTx) (h2 : a.mode = b.mode)
    (h3 : a.latchedTwoStop = b.latchedTwoStop) : a.tickLine.lineTx = b.tickLine.lineTx := by
  have hc : a.charTicks = b.charTicks := by rw [Channel.charTicks, Channel.charBits, h3]; rfl
  have hf : ∀ f, a.lastCharacter f = b.lastCharacter f := by
    intro f
    rw [Channel.lastCharacter, h2]
    rfl
  unfold Channel.tickLine
  rw [h1, hc]
  simp only [hf]
  split
  · simp_all
  · split
    · rfl
    · split <;> rfl

/-- A sample tick, part by part: what each part becomes depends on the channel before the tick, and
everything else stays (R2 to R5, R16, R126). -/
theorem Channel.sampleTick_eq (ch : Channel) :
    ch.sampleTick =
      { ch with
        rx := ch.tickReceiver.rx, rxTicks := ch.tickReceiver.rxTicks
        rxBits := ch.tickReceiver.rxBits, lowPeriod := ch.lowSampled
        idle := ch.tickIdle.idle, idlePhase := ch.tickIdle.idlePhase
        lineTx := ch.tickLine.lineTx
        response := ch.response.map fun r => { r with gap := r.gap - 1 }
        sequencer := { ch.sequencer with timer := ch.sequencer.timer.map fun n => n - 1 }
        flow := ch.flow.map fun f => { f with timer := f.timer.map fun n => n - 1 }
        refresh := ch.refresh.map fun n => n - 1
        holdTimer := ch.holdTimer.map fun n => n - 1 } := by
  have hi := Channel.tickIdle_congr ch.tickSample ch
    (by rw [Channel.tickSample_frame]) (by rw [Channel.tickSample_frame])
    (by rw [Channel.tickSample_frame])
  have hl := Channel.tickLine_congr ch.tickSample.tickIdle ch
    (by rw [Channel.tickIdle_frame, Channel.tickSample_frame])
    (by rw [Channel.tickIdle_frame, Channel.tickSample_frame])
    (by rw [Channel.tickIdle_frame, Channel.tickSample_frame])
  rw [Channel.sampleTick, Channel.tickTimers, Channel.tickLine_frame, hl, Channel.tickIdle_frame,
    hi.1, hi.2, Channel.tickSample_frame]
  rfl

/-! ### When an event is due -/

/-- A character time in sample ticks. -/
theorem Channel.charTicks_eq (ch : Channel) :
    ch.charTicks = 16 * if ch.latchedTwoStop then 12 else 11 := by
  rw [Channel.charTicks, Channel.charBits, bitTicks, Nat.mul_comm]
  rfl

theorem Channel.startDue_iff (ch : Channel) :
    ch.startDue = true ↔ ch.rx = .candidate ∧ 8 ≤ ch.rxTicks := by
  simp only [Channel.startDue, Bool.and_eq_true, beq_iff_eq, decide_eq_true_eq]
  rfl

theorem Channel.characterDue_iff (ch : Channel) :
    ch.characterDue = true ↔ ch.rx = .inCharacter ∧ 168 ≤ ch.rxTicks := by
  simp only [Channel.characterDue, Bool.and_eq_true, beq_iff_eq, decide_eq_true_eq]
  rfl

theorem Channel.highDue_iff (ch : Channel) :
    ch.highDue = true ↔ ch.rx = .waitHigh ∧ ch.rxd = true ∧ ch.prescale = 0 := by
  simp only [Channel.highDue, Bool.and_eq_true, beq_iff_eq, and_assoc]

/-- The low period in which LINE_FAULT can be raised (R4). -/
theorem Channel.faultable_eq_some (ch : Channel) (l : LowPeriod) :
    ch.faultable = some l ↔
      ch.mode ≠ .off ∧ (ch.rx = .inCharacter ∨ ch.rx = .waitHigh) ∧ ch.lowPeriod = some l ∧
        l.raised = false := by
  simp only [Channel.faultable, Bool.and_eq_true, bne_iff_ne, Bool.or_eq_true, beq_iff_eq,
    Option.ite_none_right_eq_some, Option.filter_eq_some_iff, Bool.not_eq_eq_eq_not, Bool.not_true]
  constructor <;> rintro ⟨h1, h2⟩ <;> simp_all

theorem Channel.faultDue_iff (ch : Channel) :
    ch.faultDue = true ↔
      ch.mode ≠ .off ∧ (ch.rx = .inCharacter ∨ ch.rx = .waitHigh) ∧
        ∃ l, ch.lowPeriod = some l ∧ l.raised = false ∧
          16 * (2 * if ch.latchedTwoStop then 12 else 11) ≤ l.ticks := by
  have hb : bitTicks (2 * ch.charBits) = 16 * (2 * if ch.latchedTwoStop then 12 else 11) := by
    rw [Channel.charBits, bitTicks, Nat.mul_comm]
    rfl
  rw [Channel.faultDue, hb]
  constructor
  · intro h
    split at h
    · rename_i l hl
      obtain ⟨h1, h2, h3, h4⟩ := (ch.faultable_eq_some l).1 hl
      exact ⟨h1, h2, l, h3, h4, of_decide_eq_true h⟩
    · cases h
  · rintro ⟨h1, h2, l, h3, h4, h5⟩
    rw [(ch.faultable_eq_some l).2 ⟨h1, h2, h3, h4⟩]
    exact decide_eq_true h5

theorem Channel.gapPassed_iff (ch : Channel) :
    ch.gapPassed = true ↔
      (ch.mode = .run ∨ ch.mode = .stopping) ∧ ch.idleRunning = true ∧
        max 12 ch.gapLim.toNat < ch.idle := by
  simp only [Channel.gapPassed, Channel.inService, Bool.and_eq_true, Bool.or_eq_true, beq_iff_eq,
    decide_eq_true_eq, and_assoc]
  rfl

theorem Channel.readbackMissed_iff (ch : Channel) :
    ch.readbackMissed = true ↔
      ch.mode ≠ .aborting ∧
        ∃ f, ch.lineTx = .sending f ∧ f.verdict = .pending ∧ f.readBack = false ∧ 168 < f.ticks := by
  rw [Channel.readbackMissed]
  cases h : ch.lineTx with
  | quiet => simp
  | sending f =>
    simp only [Bool.and_eq_true, bne_iff_ne, beq_iff_eq, decide_eq_true_eq, Bool.not_eq_eq_eq_not,
      Bool.not_true, LineTx.sending.injEq]
    constructor
    · rintro ⟨⟨⟨h1, h2⟩, h3⟩, h5⟩
      exact ⟨h1, f, rfl, h2, h3, h5⟩
    · rintro ⟨h1, g, rfl, h2, h3, h5⟩
      exact ⟨⟨⟨h1, h2⟩, h3⟩, h5⟩

theorem Channel.endedWith_iff (v : Verdict) (ch : Channel) :
    ch.endedWith v = true ↔
      ch.mode ≠ .aborting ∧
        ∃ f, ch.lineTx = .sending f ∧ f.verdict = v ∧
          (16 * if ch.latchedTwoStop then 12 else 11) ≤ f.ticks := by
  rw [Channel.endedWith, Channel.charTicks_eq]
  cases h : ch.lineTx with
  | quiet => simp
  | sending f =>
    simp only [Bool.and_eq_true, bne_iff_ne, beq_iff_eq, decide_eq_true_eq, LineTx.sending.injEq]
    constructor
    · rintro ⟨⟨h1, h2⟩, h3⟩
      exact ⟨h1, f, rfl, h2, h3⟩
    · rintro ⟨h1, g, rfl, h2, h3⟩
      exact ⟨⟨h1, h2⟩, h3⟩

theorem Channel.abortDue_iff (ch : Channel) :
    ch.abortDue = true ↔
      ch.mode = .aborting ∧
        ∀ f, ch.lineTx = .sending f → (16 * if ch.latchedTwoStop then 12 else 11) ≤ f.ticks := by
  rw [Channel.abortDue, Channel.charTicks_eq]
  cases h : ch.lineTx with
  | quiet => simp
  | sending f =>
    simp only [Bool.and_eq_true, beq_iff_eq, decide_eq_true_eq, LineTx.sending.injEq,
      forall_eq']

/-- Sending ends with the character (R1, R126): on a channel of which no event is due, the character
being sent has not ended, so DEn does not outlast the last stop bit. -/
theorem Channel.sending_of_due_none {c : Chan} {ch : Channel} {f : Sending} (hm : ch.mode ≠ .off)
    (hl : ch.lineTx = .sending f) (hr : f.verdict = .pending → f.readBack = false)
    (h : ch.due c = none) : f.ticks < 16 * if ch.latchedTwoStop then 12 else 11 := by
  simp only [Channel.due, hm, if_false, Option.map_eq_none_iff, List.find?_eq_none,
    Channel.dueTable, List.mem_cons, forall_eq_or_imp] at h
  obtain ⟨-, -, -, -, -, -, hmiss, hclean, hcoll, habort, -⟩ := h
  rw [Channel.readbackMissed_iff] at hmiss
  rw [Channel.endedWith_iff] at hclean hcoll
  rw [Channel.abortDue_iff] at habort
  refine Nat.not_le.1 fun hlt => ?_
  by_cases ha : ch.mode = .aborting
  · exact habort ⟨ha, fun g hg => by cases hl.symm.trans hg; exact hlt⟩
  · cases hv : f.verdict with
    | pending => exact hmiss ⟨ha, f, hl, hv, hr hv, by split at hlt <;> omega⟩
    | clean => exact hclean ⟨ha, f, hl, hv, hlt⟩
    | collision => exact hcoll ⟨ha, f, hl, hv, hlt⟩

theorem Channel.flowBackoffDue_iff (ch : Channel) :
    ch.flowBackoffDue = true ↔
      ∃ g, ch.flow = some g ∧ g.phase = .backoff ∧ g.timer = some 0 := by
  rw [Channel.flowBackoffDue]
  cases h : ch.flow <;> simp

theorem Channel.flowWaiting_iff (ch : Channel) :
    ch.flowWaiting = true ↔ ∃ g, ch.flow = some g ∧ g.phase = .waiting := by
  rw [Channel.flowWaiting]
  cases h : ch.flow <;> simp

theorem Channel.gapOver_iff (ch : Channel) :
    ch.gapOver = true ↔ ∃ r, ch.response = some r ∧ r.gap = 0 := by
  rw [Channel.gapOver]
  cases h : ch.response <;> simp

end Sys2Proof.Machine
end

