-- ==== Sys2Proof/Laws/Shared.lean ====
section
/-!
SUPPORT. The shared operations, said once: the pool monitor's judgement as one equation, what a
character that a receive engine hears does, and that the operations keep the tables canonical.
-/
namespace Sys2Proof.Machine

/-! ### The pool monitor in one equation -/

/-- The monitor's state after it judges a free count, at levels T and U (R148, R149). -/
def poolNext (p : Pool) (free : Nat) (t u : Byte) : Pool :=
  match p with
  | .normal => if free ≤ t.toNat then .low else .normal
  | .low => if max u.toNat (t.toNat + 1) ≤ free then .normal else .low

/-- The flag the monitor raises when it goes from one state to another. -/
def poolFlag (p q : Pool) : Half := if p = q then 0 else if q = .low then 0x0004 else 0x0008

/-- How the monitor's change of state acts on a channel. -/
def poolAct (p q : Pool) : Channel → Channel :=
  if p = q then id else if q = .low then Channel.enterLow else Channel.enterNormal

/-- The monitor's state after it judges the part. -/
def State.poolAfter (s : State) : Pool := poolNext s.pool s.freeList.length s.holdLevel s.resumeLevel

theorem Quad.map_id {α : Type} (q : Quad α) : q.map id = q := rfl

theorem State.poolJudge_eq (s : State) :
    s.poolJudge =
      { s with
        pool := s.poolAfter, event := s.event ||| poolFlag s.pool s.poolAfter
        chans := s.chans.map (poolAct s.pool s.poolAfter) } := by
  cases h : s.pool with
  | normal =>
    by_cases h2 : s.freeCount ≤ s.holdLevel.toNat
    · have ha : s.poolAfter = .low := by
        simp only [State.poolAfter, h, poolNext]; exact if_pos h2
      rw [ha]; simp only [State.poolJudge, h]; rw [if_pos h2]; rfl
    · have ha : s.poolAfter = .normal := by
        simp only [State.poolAfter, h, poolNext]; exact if_neg h2
      rw [ha]; simp only [State.poolJudge, h]; rw [if_neg h2]
      simp [poolFlag, poolAct, Quad.map_id, ← h]
  | low =>
    by_cases h2 : s.leaveLow ≤ s.freeCount
    · have ha : s.poolAfter = .normal := by
        simp only [State.poolAfter, h, poolNext]; exact if_pos h2
      rw [ha]; simp only [State.poolJudge, h]; rw [if_pos h2]; rfl
    · have ha : s.poolAfter = .low := by
        simp only [State.poolAfter, h, poolNext]; exact if_neg h2
      rw [ha]; simp only [State.poolJudge, h]; rw [if_neg h2]
      simp [poolFlag, poolAct, Quad.map_id, ← h]

/-! ### A character that the engine takes -/

theorem Channel.received_of_clean {x : Character} (h : x.framing = false) :
    Channel.received x = Channel.heard := by
  funext ch; simp [Channel.received, Channel.heard, Channel.lowPeriodAfter, lowAfter, h]

/-- With no request of channel c waiting the allocator serves nothing for it. -/
theorem State.serveFor_of_none {s : State} {c : Chan} (h : s.hasRequest c = false) (k : Nat) :
    s.serveFor c k = s := by
  cases k with
  | zero => rfl
  | succ k => rw [State.serveFor, h]; rfl

theorem State.beforeCharacter_of_none {s : State} {c : Chan} (h : s.hasRequest c = false) :
    s.beforeCharacter c = s := by
  unfold State.beforeCharacter
  split
  · exact s.serveFor_of_none h 4
  · rfl

/-- A character heard by an engine with no receive request waiting reaches the engine. -/
theorem exec_characterReceived_of_hears {s : State} {c : Chan} (x : Character) (h : s.Hears c)
    (hr : (s.chan c).engine.request = none) :
    exec (.characterReceived c x) s =
      .next ((s.updChan c (Channel.received x)).engineTake c x).settle := by
  obtain ⟨hm, hl, hx⟩ := h
  have hoff : (s.chan c).mode ≠ .off := by rcases hm with h | h <;> rw [h] <;> decide
  have hb : s.beforeCharacter c = s :=
    State.beforeCharacter_of_none (by simp [State.hasRequest, hr])
  simp only [exec, execCharacterReceived, State.lineCharacter, State.receiveCharacter,
    State.completeCharacter, hoff, hx, hb, hl, ne_eq, not_false_eq_true, if_true]

/-! ### Operations that keep frame memory and the page table canonical -/

theorem State.Canonical.congr {s t : State} (h : s.Canonical) (hm : t.mem = s.mem)
    (hp : t.pageTable = s.pageTable) : t.Canonical := by
  rw [State.Canonical, hm, hp]; exact h

theorem State.Canonical.updChan {s : State} (h : s.Canonical) (c : Chan) (f : Channel → Channel) :
    (s.updChan c f).Canonical := h.congr rfl rfl

theorem State.Canonical.raise {s : State} (h : s.Canonical) (e : Event) : (s.raise e).Canonical :=
  h.congr rfl rfl

theorem State.Canonical.raiseIf {s : State} (h : s.Canonical) (b : Bool) (e : Event) :
    (s.raiseIf b e).Canonical := by
  unfold State.raiseIf
  split
  · exact h.raise e
  · exact h

theorem State.Canonical.count {s : State} (h : s.Canonical) (c : Chan) (k : Counter) :
    (s.count c k).Canonical := (h.updChan c _).raiseIf _ _

theorem State.Canonical.settle {s : State} (h : s.Canonical) : s.settle.Canonical := by
  unfold State.settle
  apply State.Canonical.raiseIf
  exact h.congr rfl rfl

theorem State.Canonical.grant {s : State} (h : s.Canonical) (o : Owner) (n : Nat) :
    (s.grant o n).Canonical := by
  refine ⟨by simp only [grant_frame]; exact h.1, ?_⟩
  simp only [State.grant, poolJudge_frame]
  exact PageTable.wf_link o true _ h.2

theorem State.Canonical.release {s : State} (h : s.Canonical) (p : Page) :
    (s.release p).Canonical := by
  constructor
  · simp only [release_frame]; exact h.1
  · simp only [State.release, poolJudge_frame]
    exact PageTable.wf_release _ h.2

theorem State.Canonical.setOwner {s : State} (h : s.Canonical) (p : Page) (o : Owner) :
    (s.setOwner p o).Canonical := ⟨h.1, PageTable.wf_own o _ h.2⟩

theorem State.Canonical.storeChain {s : State} (h : s.Canonical) (p : Page) (off : Nat) (v : Byte) :
    (s.storeChain p off v).Canonical :=
  ⟨State.wf_storeChain h.1 p off v, by simp only [storeChain_frame]; exact h.2⟩

theorem State.Canonical.storeBytes {s : State} (h : s.Canonical) (p : Page) (off : Nat)
    (l : List Byte) : (s.storeBytes p off l).Canonical :=
  ⟨State.wf_storeBytes h.1 p off l, by simp only [storeBytes_frame]; exact h.2⟩

theorem State.Canonical.serveRequest {s : State} (h : s.Canonical) (c : Chan) (n : Nat) :
    (s.serveRequest c n).Canonical := by
  unfold State.serveRequest
  split
  · split
    · exact h.congr rfl rfl
    · apply State.Canonical.grant
      exact h.congr rfl rfl
  · exact h.congr rfl rfl

theorem State.Canonical.serveOne {s : State} (h : s.Canonical) : s.serveOne.Canonical := by
  unfold State.serveOne
  split
  · exact h
  · split
    · exact h
    · exact (h.serveRequest _ _).settle

theorem State.Canonical.serveFor {s : State} (h : s.Canonical) (c : Chan) (k : Nat) :
    (s.serveFor c k).Canonical := by
  induction k generalizing s with
  | zero => exact h
  | succ k ih =>
    unfold State.serveFor
    split
    · exact ih h.serveOne
    · exact h

theorem State.Canonical.serveAll {s : State} (h : s.Canonical) : s.serveAll.Canonical :=
  h.serveOne.serveOne.serveOne.serveOne

theorem State.Canonical.finishEntry {s : State} (h : s.Canonical) (c : Chan) (o : TxOutcome) :
    (s.finishEntry c o).Canonical := by
  unfold State.finishEntry
  split
  · exact h
  · dsimp only
    split
    · apply State.Canonical.updChan
      apply State.Canonical.count
      apply State.Canonical.release
      exact h.congr rfl rfl
    · apply State.Canonical.updChan
      apply State.Canonical.release
      exact h.congr rfl rfl

theorem State.Canonical.claim {s : State} (h : s.Canonical) (c : Chan) (o : TxOutcome) :
    (s.claim c o).Canonical := by
  unfold State.claim
  split
  · exact h.finishEntry c o
  · exact h.congr rfl rfl

theorem State.Canonical.completeAborted {s : State} (h : s.Canonical) (c : Chan) :
    (s.completeAborted c).Canonical := by
  unfold State.completeAborted
  split
  · exact h
  · dsimp only
    split
    · apply State.Canonical.updChan
      apply State.Canonical.release
      exact h.congr rfl rfl
    · apply State.Canonical.updChan
      apply State.Canonical.release
      exact h.raise _

theorem State.Canonical.dropFilling {s : State} (h : s.Canonical) (c : Chan) :
    (s.dropFilling c).Canonical := by
  unfold State.dropFilling
  split
  · exact h.release _
  · exact h
  · exact h

theorem State.Canonical.rejectFrame {s : State} (h : s.Canonical) (c : Chan) (k : Counter)
    (p : Parser) : (s.rejectFrame c k p).Canonical :=
  ((h.dropFilling c).count c k).congr rfl rfl

end Sys2Proof.Machine
end

