-- ==== Sys2Proof/Tests/Slice0.lean ====
section
/-!
SUPPORT. The model's own tests: the well-formedness check, the data book's examples, and for every
claim with premises a concrete state and operands that meet them.
-/
namespace Sys2Proof.Tests
open Sys2Proof Sys2Proof.Machine

/-! ### Helper states -/

/-- A channel in service whose receiver is within a character. -/
def onLine : Channel :=
  { Channel.reset with mode := .run, ownAddr := 0x31, rx := .inCharacter, idleRunning := true }

/-- The part with channel 1 as given. -/
def part (ch : Channel) : State := { State.reset with chans := State.reset.chans.set 1 ch }

/-- A part with six argument bytes. -/
def withArgs (s : State) (a b c d e f : Byte) : State := { s with arg := #v[a, b, c, d, e, f] }

/-- A channel whose engine is in a given parser state, without a frame's fields. -/
def atParser (p : Parser) : Channel := { onLine with engine := Engine.idle p }

/-- A data frame's engine at its high CHECK character, answered, with its chain at page 40h. -/
def ending : Engine :=
  ⟨.checkHi, .own, 0x31, 0x22, 0x0D, 0x02, 2, 0x00, .storing 0x40, none, 0x1234, 0x12⟩

/-- The channel of that engine. -/
def endingChan : Channel := { onLine with engine := ending }

/-- A queued entry that asks for an acknowledgement. -/
def entry (active : Bool) : TxEntry := ⟨0x40, 1, 0x22, 0x31, true, 3, 0x05, 0x77, active⟩

/-- A channel whose sequencer has made `n` attempts of an active entry and is in a state. -/
def sequencing (st : SeqState) (n : Nat) : Channel :=
  { onLine with txq := [entry true], sequencer := ⟨st, n, 3, none, none⟩ }

/-- A frame on the line, two characters long. -/
def frame (k : TxKind) (i : Nat) (back : Bool) (v : Verdict) : Sending :=
  ⟨k, [0x22, 0x31], i, 0, back, v⟩

/-- A channel that sends it. -/
def sending (k : TxKind) (i : Nat) (back : Bool) (v : Verdict) : Channel :=
  { onLine with lineTx := .sending (frame k i back v) }

/-- A flow frame in a phase after `n` attempts. -/
def flowFrame (resume : Bool) (ph : FlowPhase) (n : Nat) : FlowFrame :=
  ⟨resume, ph, n, 3, none, 0x10, 0x31⟩

/-- A channel with it in the slot. -/
def flowing (resume : Bool) (ph : FlowPhase) (n : Nat) : Channel :=
  { onLine with flow := some (flowFrame resume ph n) }

/-- A HELD chain of two pages, 40h and 41h, and its free list. -/
def held : State :=
  { State.reset with
    pageTable := [(0x40, ⟨.held, true, some 0x41⟩), (0x41, ⟨.held, false, none⟩)]
    freeList := [0x05, 0x06, 0x07] }

/-- The same with channel 1 as given. -/
def heldWith (ch : Channel) : State := { held with chans := held.chans.set 1 ch }

/-- The part takes commands: RESET# is high and no ABORT is in progress. -/
abbrev ready (s : State) : Prop := s.resetLow = false ∧ s.busy = none

/-- The part while RESET# is low. -/
def inReset : State := { State.reset with resetLow := true }

/-- What holds of the next state of a command. -/
def after (i : Instr) (s : State) (p : State → Prop) : Prop :=
  p (match exec i s with
    | .next t => t
    | .fault _ | .refused _ => s)

/-! ### Well-formedness -/

theorem test_strobe_offset_is_no_register_write :
    (Instr.registerWrite 0x30 0x00).wellFormed = false ∧
    (Instr.registerWrite 0x3F 0x00).wellFormed = false ∧
    (Instr.registerWrite 0x2F 0x00).wellFormed = true := by decide

theorem test_event_offsets_are_no_register_write :
    (Instr.registerWrite 0x05 0x01).wellFormed = false ∧
    (Instr.registerWrite 0x06 0x01).wellFormed = false ∧
    (Instr.registerWrite 0x07 0x01).wellFormed = true := by decide

theorem test_data_offset_is_no_plain_access :
    (Instr.registerWrite 0x17 0x00).wellFormed = false ∧
    (Instr.lowByteReadSnapshot 0x17).wellFormed = false ∧
    (Instr.lowByteReadSnapshot 0x05).wellFormed = true := by decide

/-- Bus accesses, idle signals, and an access while RESET# is low. -/
theorem test_bus_accesses :
    decodeBus true false false true 0x17 0x00 = some .dataRead ∧
    decodeBus true false true false 0x17 0x5A = some (.dataWrite 0x5A) ∧
    decodeBus true false true false 0x06 0x01 = some (.eventWrite true 0x01) ∧
    decodeBus true false true false 0x34 0xFF = some .submit ∧
    decodeBus true false true false 0x23 0x02 = some (.registerWrite 0x23 0x02) ∧
    decodeBus true true false true 0x17 0x00 = none ∧ decodeBus true false false false 0x17 0x00 = none ∧
    decodeBus true false true true 0x17 0x00 = none ∧
    decodeBus false false false true 0x17 0x00 = none := by decide

/-- The table gives no row bits. -/
theorem test_no_word_spells_a_command : decodeTableWord 0 0 = none := rfl

/-! ### The data book's numbers -/

theorem test_check_value :
    crc [0x31, 0x32, 0x33, 0x34, 0x35, 0x36, 0x37, 0x38, 0x39] = 0x29B1 := by decide +kernel

theorem test_ctrl_examples :
    packCtrl .data true 3 = 0x0B ∧ packCtrl .hold false 0 = 0x30 ∧ ctrlOk 0x0B = true ∧
    ctrlOk 0x1B = false ∧ ctrlOk 0x40 = false := by decide

/-- Backoff for an own address of 31h (k = 1) after attempts 1 and 2, and of 37h (k = 7), where the sum
wraps modulo 8. -/
theorem test_backoff_units :
    onLine.backoffTicks 0x31 1 = 16 * (3 * 24) ∧ onLine.backoffTicks 0x31 2 = 16 * (4 * 24) ∧
    onLine.backoffTicks 0x37 1 = 16 * (1 * 24) := by decide

/-- ALLOC of two pages right after pin reset grants pages 00h and 01h. -/
theorem test_alloc_after_reset :
    after .alloc (withArgs State.reset 2 0 0 0 0 0) (fun t =>
      t.res[0] = 0x00 ∧ t.chainPages 0x00 = [0x00, 0x01] ∧ t.freeCount = 254 ∧
      t.cmdStatus = .ok ∧ t.event = 0x0001) := by
  unfold after; decide +kernel

/-- A channel enabled after pin reset takes a marker character FFh as the DEST of a broadcast. -/
theorem test_enable_and_dest :
    after .enable (withArgs State.reset 1 0 0 0 0 0) (fun t =>
      (t.chan 1).mode = .run ∧ (t.chan 1).rx = .looking ∧
      after (.characterReceived 1 ⟨0xFF, true, false⟩) t (fun u =>
        (u.chan 1).engine.parser = .destSeen ∧ (u.chan 1).engine.cls = .broadcast ∧
        (u.chan 0).engine.parser = .hunt)) := by
  unfold after; decide +kernel

/-! ### Sampling -/

/-- One REFCLK period of a channel with DIV 0 with the receive line at a level. -/
def sampled (high : Bool) (ch : Channel) : Channel := { ch with rxd := high }.clock

/-- A line low at a falling edge and high in the middle of the start bit's cell is a false start; low
there, a start bit is due. -/
theorem test_false_start :
    (sampled false { onLine with rx := .looking }).rx = .candidate ∧
    (sampled true { onLine with rx := .candidate, rxTicks := 7 }).rx = .looking ∧
    (sampled false { onLine with rx := .candidate, rxTicks := 7 }).due 1 = some (.startBitDetected 1) := by
  decide

/-- The marker bit is the last sampled; a low stop bit is a framing error. -/
theorem test_character_is_assembled :
    (sampled true { onLine with rxTicks := 151, rxBits := 0b001100010 }).rxBits = 0b100110001 ∧
    (sampled false { onLine with rxTicks := 167, rxBits := 0b100110001 }).due 1 =
      some (.characterReceived 1 ⟨0x31, true, true⟩) := by decide

/-- A low period is measured whether or not a character starts; OFF keeps no stale level. -/
theorem test_line_is_measured_when_enabled :
    (sampled true (sampled false { onLine with rx := .waitHigh })).lowPeriod = none ∧
    (sampled true { Channel.reset with rxd := false }).enabled.rx = .looking ∧
    (sampled false Channel.reset).enabled.idleRunning = false := by decide

/-- Nothing puts a level on a segment of which nothing is said but the part itself. -/
theorem test_part_hears_itself :
    State.reset.rxdNext 1 = true ∧ (part (sending .data 0 false .pending)).rxdNext 1 = false ∧
    State.rxdNext { State.reset with rxdIn := [0b1101] } 1 = false := by decide

/-- A character sent, `t` sample ticks on, whose readback began late: the receiver is within it. -/
def lateReadback (t : Nat) (v : Verdict) : Channel :=
  { onLine with
    rx := .inCharacter, rxTicks := 100
    lineTx := .sending { frame .data 1 false v with ticks := t } }

/-- A late readback is missing at the middle of the stop bit, and sending ends with the stop bit. -/
theorem test_late_readback_is_missing :
    (lateReadback 168 .pending).due 1 = none ∧
    (lateReadback 169 .pending).due 1 = some (.missingReadback 1) ∧
    (lateReadback 175 .collision).due 1 = none ∧ (lateReadback 175 .collision).de = true ∧
    (lateReadback 176 .collision).due 1 = some (.collisionReported 1) := by decide

/-- A sampled character is compared with the character being sent, though that one is read back. -/
theorem test_sampled_character_is_compared_with_the_one_sent :
    (State.chan
      (((part { sending .data 0 true .pending with rxTicks := 168 }).completeCharacter 1
        ⟨0x31, false, false⟩)) 1).lineTx = .sending (frame .data 0 true .collision) := by decide

/-- An engine at the second CHECK character, with a filling chain. -/
def storing (ctrl : Byte) : Engine :=
  { Engine.idle .checkHi with src := 0x22, ctrl := ctrl, room := .storing 0x05 }

/-- A DATA frame alone holds a filling chain. -/
theorem test_only_data_frames_hold_pages :
    (storing 0x00).Law ∧ ¬(storing 0x10).Law ∧ ¬(storing 0x20).Law ∧ ¬(storing 0x30).Law := by
  refine ⟨⟨nofun, nofun, nofun, by decide, by decide⟩, ?_, ?_, ?_⟩ <;>
    · rintro ⟨-, -, -, -, h⟩
      exact absurd (h (.inl nofun)) (by decide)

/-! ### Premises that are met

One theorem for each claim with premises; a claim whose clauses have premises of their own has a state
for each of them, at the ends of its ranges. -/

theorem met_StepRunsTheFrontCommand :
    State.pending { State.reset with pending := [.alloc, .take] } = .alloc :: [.take] := rfl

theorem met_EmptyQueueRunsTheDueEventOrTheClock :
    State.reset.pending = [] ∧ State.reset.dueEvent = none ∧ (part onLine).pending = [] ∧
    (part { onLine with idleRunning := false, sequencer := ⟨.backoff, 1, 3, none, some 0⟩ }).dueEvent =
      some (.backoffExpiry 1) ∧
    (part { onLine with engine := { Engine.idle .len with request := some 1 } }).dueEvent =
      some .receiveRequestServed ∧ State.reset.rxdIn = [] ∧
    State.dueEvent { inReset with resetIn := [true] } = some .pinReset ∧
    (State.advance { State.reset with resetIn := [false] }).resetLow = true ∧
    State.rxdIn { State.reset with rxdIn := [0xF, 0x0] } = 0xF :: [0x0] := by decide

theorem met_ResetShowsTheRegisterMapAndEmptyTables :
    (0x00 : Offset) ≠ 0x17 ∧ (0x00 : Offset) ≠ 0x23 ∧ (0x3F : Offset) ≠ 0x17 ∧ (0x3F : Offset) ≠ 0x23 := by
  decide

theorem met_ResetsReturnToThePinResetState :
    ready held ∧ inReset.resetLow = true ∧
    isAccess .alloc = true ∧ isAccess (.registerWrite 0x2F 0xFF) = true := by decide

theorem met_BusyUnitRefusesEveryStrobe :
    State.busy { State.reset with busy := some 3 } = some 3 ∧
    State.resetLow { State.reset with busy := some 3 } = false ∧ Instr.alloc ∈ strobes ∧
    Instr.srst ∈ strobes := by decide

theorem met_RefusedCommandOnlyReportsItsCode :
    ready held ∧ (∀ c : Chan, (held.chan c).engine.request = none) ∧
    (∀ c : Chan, (held.chan c).stopReady = false) ∧ Instr.take ∈ strobes ∧
    after .take held (fun t => t.cmdStatus = .empty) := by
  unfold after; decide

theorem met_HostReadReturnsTheLocation :
    (0x05 : Offset) ≠ 0x17 ∧ held.resetLow = false ∧ State.reset.cmdStatus = .none ∧
    held.port.mode = .detached ∧ onLine.mode = .run ∧
    Channel.reset.sequencer.state = .idle ∧ (sequencing .completeWait 1).sequencer.state = .completeWait ∧
    (0x0E : Offset).toNat = 0x09 + (5 : Fin 6).val ∧ (0x0F : Offset).toNat = 0x0F + (0 : Fin 8).val ∧
    (0x16 : Offset).toNat = 0x0F + (7 : Fin 8).val ∧
    (0x2F : Offset).toNat < 0x30 ∧
    (List.replicate 32 (⟨0, 1, .own, 0, 0, 0, 0, 0⟩ : RxEntry)).length ≤ 32 ∧
    (List.replicate 16 (⟨1, 0, 0, .sent, 1⟩ : TxRecord)).length ≤ 16 ∧
    State.reset.freeList.length ≤ 256 ∧ held.freeList.length ≤ 256 ∧
    0x30 ≤ (0x30 : Offset).toNat ∧ 0x30 ≤ (0x3F : Offset).toNat := by decide +kernel

theorem met_RegisterWriteStoresTheByte :
    held.resetLow = false ∧
    (0x09 : Offset).toNat = 0x09 + (0 : Fin 6).val ∧ (0x0E : Offset).toNat = 0x09 + (5 : Fin 6).val ∧
    (0 : Chan).val = (0xFC : Byte).toNat % 4 ∧ (3 : Chan).val = (0x03 : Byte).toNat % 4 ∧
    (0x00 : Offset).toNat ≤ 0x03 ∧ (0x03 : Offset).toNat ≤ 0x03 ∧
    (0x0F ≤ (0x0F : Offset).toNat ∧ (0x0F : Offset).toNat ≤ 0x16) ∧
    (0x0F ≤ (0x16 : Offset).toNat ∧ (0x16 : Offset).toNat ≤ 0x16) ∧
    (0x18 ≤ (0x18 : Offset).toNat ∧ (0x18 : Offset).toNat ≤ 0x1E) ∧
    (0x18 ≤ (0x1E : Offset).toNat ∧ (0x1E : Offset).toNat ≤ 0x1E) := by decide

/-- The port at offsets 00h, 3Fh, 40h and 7Fh of the two-page chain, and detached. -/
theorem met_DataPortReachesTheByteAtThePointer :
    (held.attach 0x40 0x7F).port.mode = .attached ∧ held.port.mode ≠ .attached ∧
    (held.chainPages 0x40)[(0x00 : Byte).toNat / 64]? = some 0x40 ∧
    (held.chainPages 0x40)[(0x3F : Byte).toNat / 64]? = some 0x40 ∧
    (held.chainPages 0x40)[(0x40 : Byte).toNat / 64]? = some 0x41 ∧
    ((held.attach 0x40 0x7F).chainPages (held.attach 0x40 0x7F).port.page)[
      (held.attach 0x40 0x7F).port.offset.toNat / 64]? = some 0x41 ∧
    (0x7E : Byte).toNat + 1 < 64 * held.pageCount 0x40 ∧
    ¬(0x7F : Byte).toNat + 1 < 64 * held.pageCount 0x40 := by decide

theorem met_ChainByteStoresAndReadsBack :
    held.mem.wf ∧ (held.chainPages 0x40)[0 / 64]? = some 0x40 ∧
    (held.chainPages 0x40)[127 / 64]? = some 0x41 ∧ 64 * held.pageCount 0x40 ≤ 128 := by decide

theorem met_GrantReleaseAndHolderChangeActOnThePageRecords :
    held.pageTable.wf ∧ held.freeList.Nodup ∧ 3 ≤ held.freeList.length ∧ Owner.held ≠ .free ∧
    held.freeList[2]? = some 0x07 ∧ (0x40 : Page) ∉ held.freeList.take 3 ∧
    held.freeList.head? = some 0x05 ∧ (0x41 : Page) ∈ held.chainPages 0x40 ∧
    (0x05 : Page) ∉ held.chainPages 0x40 := by decide

/-- The part with three free pages, its monitor in a state, and its levels T and U. -/
def pooled (p : Pool) (t u : Byte) : State := { held with pool := p, holdLevel := t, resumeLevel := u }

/-- The pool monitor at T and T + 1, and at and below max(U, T + 1) by either term. -/
theorem met_PoolMonitorJudgesTheFreeCountAndFillsTheSlots :
    (pooled .normal 3 4).freeCount ≤ (pooled .normal 3 4).holdLevel.toNat ∧
    (pooled .normal 2 3).holdLevel.toNat < (pooled .normal 2 3).freeCount ∧
    max (pooled .low 2 3).resumeLevel.toNat ((pooled .low 2 3).holdLevel.toNat + 1) ≤
      (pooled .low 2 3).freeCount ∧
    (pooled .low 2 4).freeCount <
      max (pooled .low 2 4).resumeLevel.toNat ((pooled .low 2 4).holdLevel.toNat + 1) ∧
    (pooled .low 3 3).freeCount <
      max (pooled .low 3 3).resumeLevel.toNat ((pooled .low 3 3).holdLevel.toNat + 1) := by decide

/-- The rows of the two tables of the pool monitor. -/
theorem met_PoolMonitor_rows :
    Channel.reset.mode = .off ∧ Channel.mode { onLine with mode := .aborting } = .aborting ∧
    onLine.mode = .run ∧ onLine.flow = none ∧
    onLine.holdOutstanding = false ∧ onLine.flags.getLsbD 4 = false ∧
    Channel.holdOutstanding { onLine with holdOutstanding := true } = true ∧
    (Channel.flags { onLine with flags := 0x10 }).getLsbD 4 = true ∧
    0x01 ≤ onLine.ownAddr.toNat ∧ onLine.ownAddr.toNat ≤ 0xEF ∧
    (flowing true .waiting 0).flow = some (flowFrame true .waiting 0) ∧
    (flowing true .waiting 0).mode = .run ∧
    (flowFrame true .waiting 0).phase ≠ .sending ∧ (flowFrame true .waiting 0).resume = true ∧
    (flowing true .sending 1).flow = some (flowFrame true .sending 1) ∧
    (flowFrame true .sending 1).phase = .sending ∧
    (flowing false .backoff 1).flow = some (flowFrame false .backoff 1) ∧
    (flowFrame false .backoff 1).phase ≠ .sending ∧ (flowFrame false .backoff 1).resume = false := by
  decide

/-- ALLOC of 0 and 5, of 4 and of 1 and 3 with three pages free. -/
theorem met_AllocGrantsOrRefuses :
    (withArgs held 0 0 0 0 0 0).arg[0].toNat = 0 ∧ 4 < (withArgs held 5 0 0 0 0 0).arg[0].toNat ∧
    (withArgs held 4 0 0 0 0 0).serveAll.freeCount < (withArgs held 4 0 0 0 0 0).arg[0].toNat ∧
    (∀ n ∈ [(1 : Byte), 3],
      ready (withArgs held n 0 0 0 0 0) ∧ n.toNat = (withArgs held n 0 0 0 0 0).arg[0].toNat ∧
      1 ≤ n.toNat ∧ n.toNat ≤ 4 ∧ n.toNat ≤ (withArgs held n 0 0 0 0 0).serveAll.freeCount ∧
      (withArgs held n 0 0 0 0 0).serveAll.freeList.head? = some 0x05) ∧
    held.NoRequests := by
  unfold State.NoRequests; decide

/-- RELEASE and SEEK of the chain's head at offsets 7Fh and 80h, and of its second page. -/
theorem met_ReleaseAndSeekOfHeldChains :
    (∀ x ∈ [(0x7F : Byte), 0x80],
      ready (withArgs held 0x40 x 0 0 0 0) ∧ 0x40 = (withArgs held 0x40 x 0 0 0 0).arg[0] ∧
      ((withArgs held 0x40 x 0 0 0 0).pageTable.record 0x40).headMark = true ∧
      ((withArgs held 0x40 x 0 0 0 0).pageTable.record 0x40).owner = .held) ∧
    (withArgs held 0x40 0x7F 0 0 0 0).arg[1].toNat < 64 * (withArgs held 0x40 0x7F 0 0 0 0).pageCount 0x40 ∧
    64 * (withArgs held 0x40 0x80 0 0 0 0).pageCount 0x40 ≤ (withArgs held 0x40 0x80 0 0 0 0).arg[1].toNat ∧
    0x41 = (withArgs held 0x41 0 0 0 0 0).arg[0] ∧
    ¬(((withArgs held 0x41 0 0 0 0 0).pageTable.record 0x41).headMark = true ∧
      ((withArgs held 0x41 0 0 0 0 0).pageTable.record 0x41).owner = .held) := by decide

/-- The part with channel 1's engine waiting for `n` pages and a host reserve of `h`. -/
def requesting (n : Nat) (h : Byte) : State :=
  { heldWith { onLine with engine := { Engine.idle .len with request := some n } } with reserve := h }

/-- A request of three pages with H = 0 (granted) and H = 1 (refused), and none; a channel with a
request and one without. -/
theorem met_ReceiveRequestIsServedInRotation :
    (requesting 3 0).NextRequest 1 3 ∧
    3 + min 64 (requesting 3 0).reserve.toNat ≤ (requesting 3 0).freeCount ∧
    (requesting 3 0).freeList.head? = some 0x05 ∧ (requesting 3 1).NextRequest 1 3 ∧
    (requesting 3 1).freeCount < 3 + min 64 (requesting 3 1).reserve.toNat ∧ held.NoRequests ∧
    ((requesting 3 0).chan 1).engine.request ≠ none ∧ ((requesting 3 0).chan 0).engine.request = none := by
  unfold State.NextRequest State.NoRequests; decide

theorem met_TakeHandsOverTheOldestFrame :
    ready held ∧ held.rfq = [] ∧
    State.rfq { held with rfq := [⟨0x40, 1, .own, 0x31, 0x22, 0x05, 0x02, 0xFFFF⟩] } =
      ⟨0x40, 1, .own, 0x31, 0x22, 0x05, 0x02, 0xFFFF⟩ :: [] := by decide

/-- SUBMIT of `len` bytes to `dest` with ARG1 as given, from a part whose channel 1 is as given; the
chain is the two-page one. -/
def submits (ch : Channel) (a1 dest len : Byte) : State :=
  withArgs (heldWith ch) 0x40 a1 dest len 0x55 (checkByte dest len)

/-- SUBMIT of 120 bytes to 22h from channel 1 with AR. -/
def submitted : State := submits onLine 0x81 0x22 0x78

theorem met_SubmitComparesTheCheckByte :
    ready submitted ∧ submitted.isHeldHead submitted.arg[0] = true ∧
    submitted.arg[5] = ~~~(submitted.arg[2] ^^^ submitted.arg[3]) ∧
    (withArgs held 0x40 0 0 0 0 0).isHeldHead (withArgs held 0x40 0 0 0 0 0).arg[0] = true ∧
    (withArgs held 0x40 0 0 0 0 0).arg[5] ≠
      ~~~((withArgs held 0x40 0 0 0 0 0).arg[2] ^^^ (withArgs held 0x40 0 0 0 0 0).arg[3]) := by
  decide

/-- SUBMIT's refusals: a page that is no head, channel 4, DEST 00h, LEN 241, AR to F0h, no own address
by 00h and by F0h, LEN 121 on two pages, and a full queue. -/
theorem met_SubmitRefusesInTheOrderOfItsTests :
    (withArgs held 0x41 0 0 0 0 0).isHeldHead (withArgs held 0x41 0 0 0 0 0).arg[0] = false ∧
    4 ≤ (submits onLine 0x04 0x22 0x78).arg[1].toNat % 8 ∧
    (∀ s ∈ [submits onLine 0x01 0x00 0x78, submits onLine 0x01 0x22 0xF1,
        submits onLine 0x81 0xF0 0x78, submits { onLine with ownAddr := 0x00 } 0x01 0x22 0x78,
        submits { onLine with ownAddr := 0xF0 } 0x01 0x22 0x78],
      ready s ∧ s.isHeldHead s.arg[0] = true ∧ s.arg[5] = ~~~(s.arg[2] ^^^ s.arg[3]) ∧
      (1 : Chan).val = s.arg[1].toNat % 8 ∧
      (s.arg[2] = 0x00 ∨ 240 < s.arg[3].toNat ∨
        (s.arg[1].getLsbD 7 = true ∧ 0xF0 ≤ s.arg[2].toNat) ∨
        (s.chan 1).ownAddr = 0x00 ∨ 0xF0 ≤ (s.chan 1).ownAddr.toNat)) ∧
    (∀ s ∈ [submits onLine 0x81 0xEF 0x79,
        submits { onLine with txq := List.replicate 8 (entry false) } 0x01 0xFF 0x78],
      ready s ∧ s.isHeldHead s.arg[0] = true ∧ s.arg[5] = ~~~(s.arg[2] ^^^ s.arg[3]) ∧
      (1 : Chan).val = s.arg[1].toNat % 8 ∧
      ¬(s.arg[2] = 0x00 ∨ 240 < s.arg[3].toNat ∨
        (s.arg[1].getLsbD 7 = true ∧ 0xF0 ≤ s.arg[2].toNat) ∨
        (s.chan 1).ownAddr = 0x00 ∨ 0xF0 ≤ (s.chan 1).ownAddr.toNat)) ∧
    (submits onLine 0x81 0xEF 0x79).pageCount 0x40 < pagesFor 121 ∧
    8 ≤ ((submits { onLine with txq := List.replicate 8 (entry false) } 0x01 0xFF 0x78).chan 1).txq.length
    := by decide

theorem met_SubmitQueuesTheChain :
    ready submitted ∧ submitted.isHeldHead submitted.arg[0] = true ∧
    submitted.arg[5] = ~~~(submitted.arg[2] ^^^ submitted.arg[3]) ∧
    (1 : Chan).val = submitted.arg[1].toNat % 8 ∧ submitted.arg[2] ≠ 0x00 ∧
    submitted.arg[3].toNat ≤ 240 ∧
    (submitted.arg[1].getLsbD 7 = true → submitted.arg[2].toNat ≤ 0xEF) ∧
    (submitted.chan 1).ownAddr ≠ 0x00 ∧ (submitted.chan 1).ownAddr.toNat ≤ 0xEF ∧
    pagesFor submitted.arg[3].toNat ≤ submitted.pageCount submitted.arg[0] ∧
    (submitted.chan 1).txq.length < 8 := by decide

/-- A queue whose head is active and whose second entry is not, both with tag 77h. -/
def queued : Channel := { sequencing .backoff 1 with txq := [entry true, entry false] }

/-- CANCEL of channel 4, of a tag with an entry to withdraw, with the active entry alone, with none. -/
theorem met_CancelWithdrawsTheOldestMatch :
    4 ≤ (withArgs (part queued) 4 0 0 0 0 0).arg[0].toNat ∧
    (∀ s ∈ [withArgs (part queued) 1 0x77 0 0 0 0],
      ready s ∧ (1 : Chan).val = s.arg[0].toNat ∧
      (s.chan 1).txq = [entry true] ++ entry false :: [] ∧ (entry false).active = false ∧
      (entry false).tag = s.arg[1] ∧ (∀ x ∈ [entry true], x.active = true ∨ x.tag ≠ s.arg[1])) ∧
    (∀ s ∈ [withArgs (part (sequencing .backoff 1)) 1 0x77 0 0 0 0],
      (∀ x ∈ (s.chan 1).txq, x.tag = s.arg[1] → x.active = true) ∧
      (∃ x ∈ (s.chan 1).txq, x.tag = s.arg[1])) ∧
    (∀ s ∈ [withArgs (part queued) 1 0x78 0 0 0 0], ∀ x ∈ (s.chan 1).txq, x.tag ≠ s.arg[1]) := by
  decide

theorem met_FlushReleasesWhatIsNotActive :
    4 ≤ (withArgs (part queued) 4 0 0 0 0 0).arg[0].toNat ∧
    (∀ s ∈ [withArgs (part queued) 1 0 0 0 0 0],
      ready s ∧ (1 : Chan).val = s.arg[0].toNat ∧
      ((s.chan 1).txq.filter fun e => !e.active) = [entry false] ∧
      ((s.chan 1).txq.filter fun e => e.active) = [entry true]) := by decide

theorem met_PopdoneHandsOverTheOldestRecord :
    ready held ∧ held.tcq = [] ∧
    State.tcq { held with tcq := [⟨1, 0x77, 3, .acked, 16⟩] } = ⟨1, 0x77, 3, .acked, 16⟩ :: [] ∧
    (∀ c : Chan, (held.chan c).sequencer.state ≠ .completeWait) ∧
    ((part { onLine with
      txq := [entry true], sequencer := ⟨.completeWait, 1, 3, some .sent, none⟩ }).NextWaiting 1 .sent) := by
  unfold State.NextWaiting; decide

/-- The completion queue with 15 and with 16 records. -/
theorem met_CompletionRecordsAndReleases :
    (∀ n ∈ [15, 16],
      ((State.chans { part queued with tcq := List.replicate n ⟨1, 0, 0, .sent, 1⟩ }).get 1).txq =
        entry true :: [entry false]) ∧
    (State.tcq { part queued with tcq := List.replicate 15 ⟨1, 0, 0, .sent, 1⟩ }).length < 16 ∧
    16 ≤ (State.tcq { part queued with tcq := List.replicate 16 ⟨1, 0, 0, .sent, 1⟩ }).length := by
  decide

theorem met_EnableStartsTheChannel :
    4 ≤ (withArgs (part onLine) 4 0 0 0 0 0).arg[0].toNat ∧
    (∀ s ∈ [withArgs (part onLine) 1 0 0 0 0 0],
      ready s ∧ (1 : Chan).val = s.arg[0].toNat ∧ (s.chan 1).mode ≠ .off) ∧
    (∀ s ∈ [withArgs (part onLine) 3 0 0 0 0 0],
      ready s ∧ (3 : Chan).val = s.arg[0].toNat ∧ (s.chan 3).mode = .off) := by decide

theorem met_DisabledChannelEntersOffWhenItMayStop :
    4 ≤ (withArgs (part onLine) 4 0 0 0 0 0).arg[0].toNat ∧
    (∀ s ∈ [withArgs (part onLine) 1 0 0 0 0 0],
      ready s ∧ (1 : Chan).val = s.arg[0].toNat ∧ (s.chan 1).mode = .run) ∧
    (∀ s ∈ [withArgs (part onLine) 0 0 0 0 0 0],
      ready s ∧ (0 : Chan).val = s.arg[0].toNat ∧ (s.chan 0).mode ≠ .run) ∧
    Channel.MayStop ((part { onLine with mode := .stopping }).chan 1) ∧
    ¬Channel.MayStop ((part { onLine with mode := .stopping }).chan 0) := by
  unfold Channel.MayStop; decide

/-- ABORT of channels OFF, RUN with the line transmitter QUIET, RUN with it SENDING, and STOPPING. -/
theorem met_AbortStopsTheChannel :
    4 ≤ (withArgs (part onLine) 4 0 0 0 0 0).arg[0].toNat ∧
    (∀ s ∈ [withArgs (part onLine) 0 0 0 0 0 0],
      ready s ∧ (0 : Chan).val = s.arg[0].toNat ∧ (s.chan 0).mode = .off) ∧
    (∀ s ∈ [withArgs (part onLine) 1 0 0 0 0 0],
      ready s ∧ (1 : Chan).val = s.arg[0].toNat ∧ (s.chan 1).mode = .run ∧
      (s.chan 1).lineTx = .quiet) ∧
    (∀ s ∈ [withArgs (part (sending .data 0 false .pending)) 1 0 0 0 0 0],
      (1 : Chan).val = s.arg[0].toNat ∧ (s.chan 1).mode = .run ∧ (s.chan 1).lineTx ≠ .quiet) ∧
    (∀ s ∈ [withArgs (part { queued with mode := .stopping }) 1 0 0 0 0 0],
      (1 : Chan).val = s.arg[0].toNat ∧ (s.chan 1).mode = .stopping ∧
      (s.chan 1).sequencer.state = .backoff) := by decide

theorem met_AbortCompletesAndRecordsTheEntry :
    ((part { onLine with mode := .aborting }).chan 1).mode = .aborting ∧
    ((part onLine).chan 1).mode ≠ .aborting ∧ ((part queued).chan 1).txq = entry true :: [entry false] ∧
    (part queued).tcq.length < 16 := by decide

theorem met_ClearseqRemovesTheSelectedChannels :
    ready held ∧ State.busy { held with busy := some 0 } ≠ none := by decide

theorem met_StwriteReplacesAnEntry :
    (∀ s ∈ [withArgs held 16 1 0 0 0 0, withArgs held 15 0x00 0 0 0 0, withArgs held 0 0xFF 0 0 0 0],
      ready s ∧ (16 ≤ s.arg[0].toNat ∨ s.arg[1] = 0x00 ∨ s.arg[1] = 0xFF)) ∧
    (∀ s ∈ [withArgs held 15 0x01 0 0 0 0, withArgs held 15 0xFE 0 0 0 0],
      ready s ∧ (15 : Fin 16).val = s.arg[0].toNat ∧ s.arg[1] ≠ 0x00 ∧ s.arg[1] ≠ 0xFF) := by
  decide

theorem met_StreadShowsAnEntry :
    ready held ∧ 16 ≤ (withArgs held 16 0 0 0 0 0).arg[0].toNat ∧
    (15 : Fin 16).val = (withArgs held 15 0 0 0 0 0).arg[0].toNat ∧
    (0 : Fin 16).val = (withArgs held 0 0 0 0 0 0).arg[0].toNat := by decide

/-- COUNTER of channel 4, of index 16, of counter 15 of channel 3 with and without a clear; a counter
at FFFDh, FFFEh and FFFFh. -/
theorem met_CountersCountReadAndClear :
    (∀ s ∈ [withArgs held 4 0 0 0 0 0, withArgs held 0 16 0 0 0 0],
      ready s ∧ (4 ≤ s.arg[0].toNat ∨ 16 ≤ s.arg[1].toNat)) ∧
    (∀ s ∈ [withArgs held 3 15 0xFE 0 0 0, withArgs held 3 15 0x01 0 0 0],
      ready s ∧ (3 : Chan).val = s.arg[0].toNat ∧ (15 : Fin 16).val = s.arg[1].toNat) ∧
    (withArgs held 3 15 0xFE 0 0 0).arg[2].getLsbD 0 = false ∧
    (withArgs held 3 15 0x01 0 0 0).arg[2].getLsbD 0 = true := by
  decide

/-- A counter at FFFDh, FFFEh and FFFFh: each value is one a counter can hold. -/
theorem met_Counters_values (v : Half) :
    ((part { onLine with counters := Vector.replicate 16 v }).chan 1).counters[Counter.rxGap.index] = v := by
  simp [part, State.chan, Quad.get, Quad.set]

/-- A receiver that looks, one that follows a candidate with its low period measured, one within a
character with and without a low period, and one that waits for a high line. -/
theorem met_StartBitAndLowPeriodOfTheReceiver :
    ((part { onLine with rx := .looking }).chan 1).rx = .looking ∧ ((part onLine).chan 1).mode ≠ .off ∧
    ((part { onLine with rx := .candidate, lowPeriod := some ⟨8, false⟩ }).chan 1).rx = .candidate ∧
    ((part { onLine with rx := .candidate, lowPeriod := some ⟨8, false⟩ }).chan 1).lowPeriod =
      some ⟨8, false⟩ ∧
    ((part onLine).chan 1).response = none ∧
    ((part { onLine with rx := .looking, response := some ⟨false, 0x22, 3, 0⟩ }).chan 1).response =
      some ⟨false, 0x22, 3, 0⟩ ∧
    ((part onLine).chan 0).mode = .off ∧ ((part onLine).chan 1).rx = .inCharacter ∧
    ((part { onLine with rx := .waitHigh }).chan 1).rx = .waitHigh ∧
    ((part onLine).chan 1).lowPeriod = none ∧
    ((part { onLine with lowPeriod := some ⟨352, false⟩ }).chan 1).lowPeriod = some ⟨352, false⟩ ∧
    ((part { onLine with lowPeriod := some ⟨0, true⟩ }).chan 1).lowPeriod = some ⟨0, true⟩ := by decide

/-- An engine that waits for four pages at LEN, its channel within a character. -/
def waiting4 : Channel := { onLine with engine := { Engine.idle .len with request := some 4 } }

theorem met_CharacterFollowsItsStartBitAndRequest :
    ((part { onLine with rx := .looking }).chan 1).rx = .looking ∧
    ((part { onLine with rx := .candidate }).chan 1).rx = .candidate ∧
    ((part { onLine with mode := .aborting }).chan 1).mode = .aborting ∧
    ((part { onLine with mode := .aborting }).chan 1).lineTx = .quiet ∧
    (part waiting4).Hears 1 ∧ ((part waiting4).chan 1).engine.Law ∧
    ((part waiting4).chan 1).engine.request = some 4 := by
  refine ⟨by decide, by decide, by decide, by decide, by unfold State.Hears; decide,
    ⟨nofun, nofun, ?_, nofun, fun _ => by decide⟩, by decide⟩
  rintro n h
  cases h
  decide

/-- DESTs that are the own address, the broadcast address, listed by the last entry, and none of these
with and without promiscuous. -/
theorem met_DestinationIsClassedInOrder :
    (∀ s ∈ [part onLine],
      (0x01 ≤ (s.chan 1).ownAddr.toNat ∧ (s.chan 1).ownAddr.toNat ≤ 0xEF ∧
        0x31 = (s.chan 1).ownAddr) ∧
      0xFF ≠ (s.chan 1).ownAddr ∧ (s.chan 1).flags.getLsbD 1 = true ∧ (s.chan 1).flags.getLsbD 2 = false ∧
      ∀ i : Fin 16, s.station[i].valid = false) ∧
    (∀ s ∈ [{ part onLine with station := Vector.replicate 16 ⟨true, 0x44, 0b0010⟩ }],
      s.station[(15 : Fin 16)].valid = true ∧ s.station[(15 : Fin 16)].addr = 0x44 ∧
      s.station[(15 : Fin 16)].mask.getLsbD (1 : Chan).val = true) ∧
    ((part { onLine with flags := 0x04 }).chan 1).flags.getLsbD 2 = true := by decide +kernel

theorem met_RejectReleasesCountsAndEnds :
    ((part endingChan).chan 1).engine.room = .storing 0x40 ∧
    (∀ h, ((part onLine).chan 1).engine.room ≠ .storing h) := by
  refine ⟨rfl, fun h => nofun⟩

theorem met_CharacterStartsPassesOrEndsAFrame :
    (part onLine).Hears 1 ∧ ((part onLine).chan 1).engine.request = none ∧
    ((part onLine).chan 1).engine.parser = .hunt ∧ (part onLine).classify 1 0x32 = none ∧
    (part onLine).classify 1 0x31 = some .own ∧ (0x31 : Byte) ≠ 0x00 ∧
    (part { onLine with flags := 0x04 }).classify 1 0x00 = some .any ∧
    (part (atParser .skip)).Hears 1 ∧ ((part (atParser .skip)).chan 1).engine.parser = .skip ∧
    (part endingChan).Hears 1 ∧ ((part endingChan).chan 1).engine.parser.inFlight = true ∧
    ((part endingChan).chan 1).engine.request = none := by
  unfold State.Hears; decide

/-- A framing error after sampled cells, and after named ones: the last data bit 1, the first, none. -/
theorem test_low_period_after_a_framing_error :
    (∀ b ∈ [(0x80 : Byte), 0x01, 0x00],
      (Channel.received ⟨b, false, true⟩
        { onLine with rxTicks := 168, lowPeriod := some ⟨40, true⟩ }).lowPeriod = some ⟨40, true⟩) ∧
    (∀ x ∈ [((0x80 : Byte), false, 24), (0x01, false, 136), (0xFF, true, 8)],
      (Channel.received ⟨x.1, x.2.1, true⟩ { onLine with lowPeriod := some ⟨8, true⟩ }).lowPeriod =
        some ⟨x.2.2, false⟩) ∧
    (Channel.received ⟨0x00, false, true⟩ { onLine with lowPeriod := some ⟨8, true⟩ }).lowPeriod =
      some ⟨168, true⟩ := by decide

theorem met_HeaderCharactersAreJudged :
    (part (atParser .destSeen)).Hears 1 ∧ (part (atParser .src)).Hears 1 ∧
    (part (atParser .ctrl)).Hears 1 ∧ ((part (atParser .ctrl)).chan 1).engine.request = none ∧
    (0x01 ≤ (0x01 : Byte).toNat ∧ (0xEF : Byte).toNat ≤ 0xEF) ∧ 0xF0 ≤ (0xF0 : Byte).toNat ∧
    (ctrlKind 0x0F = .data ∧ (0x0F : Byte).getLsbD 7 = false ∧ (0x0F : Byte).getLsbD 6 = false) ∧
    (ctrlKind 0x18 ≠ .data ∧ (0x18 : Byte).getLsbD 3 = true) ∧ (0x40 : Byte).getLsbD 6 = true ∧
    (0x80 : Byte).getLsbD 7 = true ∧ (0xF0 : Byte).toNat ≤ 240 ∧ 240 < (0xF1 : Byte).toNat ∧
    ctrlKind 0x10 = .ack ∧ ctrlKind 0x20 = .nak ∧ ctrlKind 0x30 = .hold := by
  unfold State.Hears; decide

theorem met_PayloadIsStoredInLineOrder :
    (part { endingChan with engine := { ending with parser := .len, count := 0 } }).Hears 1 ∧
    ending.request = none ∧ 0 < ending.len.toNat ∧ 1 < ending.len.toNat ∧ ending.len.toNat ≤ 2 ∧
    ending.room = .storing 0x40 ∧ Engine.room { ending with room := .noRoom } ≠ .storing 0x40 := by
  unfold State.Hears; decide

theorem met_DataFrameEndPlacesTheFrame :
    (part endingChan).Hears 1 ∧ ending.request = none ∧ ending.parser = .checkHi ∧
    ending.check = ending.checkHi ++ (0x34 : Byte) ∧ ctrlKind ending.ctrl = .data ∧ endingChan.Answers ∧
    ¬(Channel.Answers { endingChan with flags := 0x00 }) ∧
    State.seqHit { part endingChan with seqTable := [⟨1, 0x22, 5⟩] } 1 0x22 5 = true ∧
    (part endingChan).seqHit 1 0x22 5 = false ∧ ending.room = .storing 0x40 ∧
    32 ≤ (List.replicate 32 (⟨0, 1, .own, 0, 0, 0, 0, 0⟩ : RxEntry)).length ∧
    (part endingChan).rfq.length < 32 := by
  unfold State.Hears Channel.Answers; decide

theorem met_OtherFrameEndsDeliverOrReject :
    (part { endingChan with engine := { ending with ctrl := 0x13, len := 0, room := .none } }).Hears 1 ∧
    ending.check = ending.checkHi ++ (0x34 : Byte) ∧ ending.check ≠ ending.checkHi ++ (0x35 : Byte) ∧
    ctrlKind 0x13 = .ack ∧ ctrlKind 0x23 = .nak ∧ ctrlKind 0x30 = .hold ∧ ending.cls = .own ∧
    ending.cls ≠ .any ∧ endingChan.flags.getLsbD 5 = true ∧ (0xFF : Byte) ≠ 0x00 := by
  unfold State.Hears; decide

theorem met_ResponseSlotAndSequenceTableKeepTheNewest :
    ((part onLine).chan 1).response = none ∧
    ((part { onLine with response := some ⟨false, 0x22, 3, 0⟩ }).chan 1).response =
      some ⟨false, 0x22, 3, 0⟩ ∧
    ([⟨1, 0x22, 3⟩].filter (fun e : SeqEntry => ¬(e.chan = 1 ∧ e.src = 0x22))).length < 32 ∧
    ((List.replicate 32 (⟨0, 0x22, 3⟩ : SeqEntry)).filter
      (fun e => ¬(e.chan = 1 ∧ e.src = 0x22))).length = 32 ∧
    (part onLine).SeqKeysDistinct := by
  unfold State.SeqKeysDistinct; decide

theorem met_GapEndsFrameOrSkip :
    ((part endingChan).chan 1).mode = .run ∧ ((part endingChan).chan 1).idleRunning = true ∧
    ((part endingChan).chan 1).engine.parser.inFlight = true ∧
    ((part (atParser .skip)).chan 1).engine.parser = .skip ∧
    ((part { endingChan with idleRunning := false }).chan 1).idleRunning = false ∧
    ((part onLine).chan 1).engine.parser.inFlight = false := by decide

/-- A NAK at attempt 3 of 4, with attempts left, and at attempt 4. -/
theorem met_MatchingDeliveriesActOnTheSequencer :
    ((part (sequencing .awaitAck 3)).chan 1).txq = entry true :: [] ∧ (entry true).active = true ∧
    (entry true).ar = true ∧ (sequencing .busyWait 1).sequencer.state = .busyWait ∧
    (sequencing .awaitAck 3).sequencer.attempts < 1 + (sequencing .awaitAck 3).sequencer.limit ∧
    1 + (sequencing .awaitAck 4).sequencer.limit ≤ (sequencing .awaitAck 4).sequencer.attempts := by
  decide

theorem met_StrayDeliveryOnlyCounts :
    ((part onLine).chan 1).txq = [] ∧ (entry true).dest ≠ 0x23 ∧
    (sequencing .attempt 1).sequencer.state ≠ .awaitAck := by decide

/-- The comparator at the first and the last character, and after a readback. -/
theorem met_ReadbackFindsCleanEndsAndCollisions :
    (sending .data 0 false .pending).rx = .inCharacter ∧ (sending .data 0 false .pending).mode ≠ .off ∧
    (frame .data 0 false .pending).chars[0]? = some 0x22 ∧
    (frame .data 0 true .pending).index + 1 < (frame .data 0 true .pending).chars.length ∧
    (frame .data 1 false .pending).index + 1 = (frame .data 1 false .pending).chars.length ∧
    (frame .data 1 false .clean).verdict ≠ .pending ∧
    ((part (sending .data 1 true .pending)).chan 1).lineTx = .sending (frame .data 1 true .pending) ∧
    168 ≤ Channel.rxTicks { sending .data 0 true .pending with rxTicks := 168 } ∧
    Channel.rxTicks { sending .data 0 true .pending with rxTicks := 167 } < 168 ∧
    (frame .data 1 true .pending).chars.length ≤ (frame .data 1 true .pending).index + 1 ∧
    ((part onLine).chan 1).lineTx = .quiet := by decide

theorem met_CleanEndsAreReportedToTheSource :
    ((part (sequencing .attempt 1)).chan 1).txq = entry true :: [] ∧ (entry true).ar = true ∧
    TxEntry.ar { entry true with ar := false } = false ∧
    ((part (flowing false .sending 1)).chan 1).flow = some (flowFrame false .sending 1) ∧
    (flowFrame true .sending 1).resume = true ∧ (part onLine).pool = .normal ∧
    State.pool { part onLine with pool := .low } = .low := by decide

theorem met_EndsOfSendingReportCollisions :
    ((part (sending .data 1 true .clean)).chan 1).lineTx = .sending (frame .data 1 true .clean) ∧
    (frame .response 0 true .collision).verdict = .collision ∧ onLine.mode ≠ .aborting ∧
    (sequencing .attempt 3).sequencer.attempts < 1 + (sequencing .attempt 3).sequencer.limit ∧
    1 + (sequencing .attempt 4).sequencer.limit ≤ (sequencing .attempt 4).sequencer.attempts ∧
    (flowing false .sending 1).holdOutstanding = false ∧
    (flowFrame false .sending 3).attempts < 1 + (flowFrame false .sending 3).limit ∧
    1 + (flowFrame true .sending 4).limit ≤ (flowFrame true .sending 4).attempts := by decide

theorem met_ResponseStartsOrIsDropped :
    ((part { onLine with response := some ⟨true, 0x22, 3, 0⟩ }).chan 1).response =
      some ⟨true, 0x22, 3, 0⟩ ∧
    onLine.lineTx = .quiet ∧ onLine.mode = .run ∧ 0x01 ≤ onLine.ownAddr.toNat ∧
    onLine.ownAddr.toNat ≤ 0xEF ∧ (0x00 : Byte).toNat = 0 ∧ 0xEF < (0xF0 : Byte).toNat := by decide

theorem met_FlowFrameStartsOrIsDropped :
    ((part (flowing false .waiting 0)).chan 1).flow = some (flowFrame false .waiting 0) ∧
    (flowing false .waiting 0).lineTx = .quiet ∧ (flowing false .waiting 0).response = none ∧
    (flowing false .waiting 0).engine.parser = .hunt ∧ (flowing false .waiting 0).idleRunning = true ∧
    (flowFrame false .backoff 1).phase ≠ .waiting := by decide

theorem met_AttemptSendsTheHeadEntry :
    ((part (sequencing .defer 1)).chan 1).txq = entry true :: [] ∧
    (sequencing .defer 1).sequencer.attempts ≠ 0 ∧ (sequencing .defer 0).sequencer.attempts = 0 ∧
    (sequencing .defer 1).sequencer.state = .defer ∧ (sequencing .defer 1).lineTx = .quiet ∧
    (∀ f, (sequencing .defer 1).flow = some f → f.phase ≠ .waiting) ∧
    (sequencing .defer 1).engine.parser = .hunt ∧ (sequencing .defer 1).idleRunning = true ∧
    (sequencing .defer 1).holdTimer = none ∧ (sequencing .defer 1).mode = .run ∧
    (sequencing .backoff 1).sequencer.state ≠ .defer := by
  refine ⟨by decide, by decide, by decide, by decide, by decide, nofun, by decide, by decide, by decide,
    by decide, by decide⟩

theorem met_TimersExpire :
    (sequencing .backoff 1).sequencer.state = .backoff ∧
    (sequencing .busyWait 1).sequencer.state = .busyWait ∧
    (sequencing .awaitAck 3).sequencer.attempts < 1 + (sequencing .awaitAck 3).sequencer.limit ∧
    1 + (sequencing .awaitAck 4).sequencer.limit ≤ (sequencing .awaitAck 4).sequencer.attempts ∧
    Channel.refresh { onLine with refresh := some 0 } ≠ none ∧ onLine.refresh = none ∧
    (flowFrame false .backoff 1).phase = .backoff ∧ onLine.flow = none := by decide

theorem met_FramesCarryTheirCheckAndFields : (56 : Nat) ≤ 56 ∧ 57 ≤ 120 ∧ 121 ≤ 184 ∧ 185 ≤ 240 := by
  decide


/-! The laws that every step keeps hold in a part with a chain of two pages that the host holds. -/

/-- Pages 00h and 01h are one HELD chain; the others are free. -/
def lawful : State :=
  { State.reset with
    pageTable := [(0, ⟨.held, true, some 0x01⟩), (1, ⟨.held, false, none⟩)]
    freeList := (List.range 254).map fun n => BitVec.ofNat 8 (n + 2) }

/-- What a page record of that part is. -/
theorem lawful_record (p : Page) :
    lawful.pageTable.record p =
      if p = 0x00 then ⟨.held, true, some 0x01⟩
      else if p = 0x01 then ⟨.held, false, none⟩ else PageRecord.free := by
  revert p; decide +kernel

theorem met_StepKeepsTablesCanonical : lawful.Canonical := by
  unfold State.Canonical; decide

theorem met_StepKeepsCapacitiesAndReservedBits :
    lawful.Bounded ∧ lawful.SeqKeysDistinct ∧ lawful.ReservedZero ∧ lawful.BusyIffAborting := by
  unfold State.Bounded State.SeqKeysDistinct State.ReservedZero State.BusyIffAborting; decide

theorem met_StepKeepsChannelsLaw : lawful.ChannelsLaw := by
  have h : ∀ c : Chan, lawful.chan c = Channel.reset := by decide
  refine ⟨fun c => ?_, by unfold State.Settled; decide, fun c => ?_⟩
  · rw [h c]
    refine ⟨⟨fun _ => rfl, by decide, nofun, by decide, by decide⟩, ?_, ?_, ?_, nofun, nofun, nofun, nofun, nofun⟩
    · unfold Channel.QueueLaw; decide
    · unfold Sequencer.AttemptLaw; decide
    · unfold Channel.ModeLaw Channel.AtRest; decide
  · rw [h c]
    exact ⟨nofun, nofun⟩

theorem lawful_mem_free (p : Page) : p ∈ lawful.freeList ↔ p ≠ 0x00 ∧ p ≠ 0x01 := by
  simp only [lawful, List.mem_map, List.mem_range]
  constructor
  · rintro ⟨n, hn, rfl⟩
    constructor <;> intro h <;> have := congrArg BitVec.toNat h <;> simp at this <;> omega
  · rintro ⟨h0, h1⟩
    have a : p.toNat ≠ 0 := fun h => h0 (BitVec.eq_of_toNat_eq h)
    have b : p.toNat ≠ 1 := fun h => h1 (BitVec.eq_of_toNat_eq h)
    have c := p.isLt
    refine ⟨p.toNat - 2, by omega, BitVec.eq_of_toNat_eq ?_⟩
    rw [BitVec.toNat_ofNat]; omega

theorem met_StepKeepsEveryPageAccountedFor : lawful.PagesLaw := by
  constructor
  · refine List.Pairwise.map _ ?_ (List.Pairwise.and_mem.mp List.nodup_range)
    intro a b h e
    have := congrArg BitVec.toNat e
    simp only [BitVec.toNat_ofNat, List.mem_range] at this h
    omega
  · intro p; rw [lawful_record, lawful_mem_free]
    split
    · simp_all
    · split <;> simp_all [PageRecord.free]
  · intro p; rw [lawful_record]
    split
    · simp
    · split <;> simp
  · intro p q; rw [lawful_record, lawful_record]
    split <;> simp_all
    · intro h; subst h; decide
    · split <;> simp [PageRecord.free]
  · intro p p' q
    rw [lawful_record, lawful_record]
    split <;> split <;> simp_all [PageRecord.free]
    all_goals (split <;> simp_all)
  · intro p hp
    rw [lawful_record] at hp
    refine ⟨0x00, by decide, ?_⟩
    have hc : lawful.chainPages 0x00 = [0x00, 0x01] := by decide
    rw [hc]
    split at hp
    · simp_all
    · split at hp <;> simp_all [PageRecord.free]
  · intro h hh
    have h0 : h = 0x00 := by
      rw [lawful_record] at hh
      split at hh
      · assumption
      · split at hh <;> simp_all [PageRecord.free]
    subst h0
    exact ⟨0x01, by decide, by decide⟩
  · decide
  · decide
  · intro h hh
    left
    rw [lawful_record] at *
    split at hh
    · simp_all
    · split at hh <;> simp_all [PageRecord.free]

/-- The port at the last byte of that chain, attached and in END, and detached. -/
theorem met_StepKeepsEveryPageAccountedFor_port :
    lawful.PortLaw ∧ State.PortLaw { lawful with port := ⟨.attached, 0x00, 0x7F⟩ } ∧
    State.PortLaw { lawful with port := ⟨.ended, 0x00, 0x7F⟩ } := by
  unfold State.PortLaw; decide

/-! The clock: below and at the latched DIV, and the parts of a channel that a sample tick moves. -/

/-- A channel with DIV 1 latched and its prescaler at `n`. -/
def prescaled (n : Nat) : Channel := { onLine with latchedDiv := 0x0001, prescale := n }

theorem met_SampleTicksMoveTheChannel :
    (part (sending .data 0 false .pending)).resetLow = false ∧ Channel.reset.mode = .off ∧ onLine.mode ≠ .off ∧
    (prescaled 0).prescale < (prescaled 0).latchedDiv.toNat ∧
    (prescaled 1).latchedDiv.toNat ≤ (prescaled 1).prescale ∧
    (∀ i ∈ [0, 8],
      Channel.rxTicks (Channel.sampleTick { onLine with rxTicks := 16 * (i + 1) + 7 }) =
        16 * (i + 1) + 8) ∧
    Channel.idlePhase { onLine with idlePhase := 14 } < 15 ∧
    15 ≤ Channel.idlePhase { onLine with idlePhase := 15 } ∧
    (frame .data 0 true .pending).index + 1 < (frame .data 0 true .pending).chars.length ∧
    (frame .data 1 true .pending).chars.length ≤ (frame .data 1 true .pending).index + 1 ∧
    (frame .data 0 false .pending).chars[(frame .data 0 false .pending).index]? = some 0x22 := by
  decide

end Sys2Proof.Tests
end

/-!
PROOFS. The host's view of a chain: the byte that a chain offset names, the pointer of the data port
(R36 to R40), and the commands RELEASE and SEEK (R33, R35).
-/
namespace Sys2Proof.Machine

/-! ### The byte at a chain offset -/

theorem State.chainAddr_of_page {s : State} {h p : Page} {off : Nat}
    (hp : (s.chainPages h)[off / 64]? = some p) :
    s.chainAddr h off = some (64 * p.toNat + off % 64) := by
  simp [State.chainAddr, pageAddr, Config.pageSize, hp, Nat.mul_comm]

theorem State.chainByte_of_page {s : State} {h p : Page} {off : Nat}
    (hp : (s.chainPages h)[off / 64]? = some p) :
    s.chainByte h off = s.mem.read (64 * p.toNat + off % 64) := by
  simp [State.chainByte, chainAddr_of_page hp]

theorem State.storeChain_of_page {s : State} {h p : Page} {off : Nat}
    (hp : (s.chainPages h)[off / 64]? = some p) (v : Byte) :
    s.storeChain h off v = { s with mem := s.mem.write (64 * p.toNat + off % 64) v } := by
  simp [State.storeChain, chainAddr_of_page hp]

/-! ### The data port -/

/-- The data port after an access to DATA in ATTACHED (R36): the pointer one byte further, or END at
the chain's last byte. -/
def State.portAfter (s : State) : DataPort :=
  if s.port.offset.toNat + 1 < 64 * s.pageCount s.port.page then
    ⟨.attached, s.port.page, s.port.offset + 1⟩
  else ⟨.ended, s.port.page, s.port.offset⟩

theorem State.portAdvance_of_attached {s : State} (ha : s.port.mode = .attached) :
    s.portAdvance = { s with port := s.portAfter } := by
  unfold State.portAdvance State.portAfter
  by_cases hlt : s.port.offset.toNat + 1 < 64 * s.pageCount s.port.page
  · simp [Config.pageSize, hlt, ha]
  · simp [Config.pageSize, hlt]

theorem State.dataReadOp_of_attached {s : State} {p : Page} (ha : s.port.mode = .attached)
    (hp : (s.chainPages s.port.page)[s.port.offset.toNat / 64]? = some p) :
    s.dataReadOp =
      { s with
        dOut := s.mem.read (64 * p.toNat + s.port.offset.toNat % 64), port := s.portAfter } := by
  unfold State.dataReadOp
  rw [if_pos ha, chainByte_of_page hp]
  exact portAdvance_of_attached ha

theorem State.dataWriteOp_of_attached {s : State} {p : Page} (ha : s.port.mode = .attached)
    (hp : (s.chainPages s.port.page)[s.port.offset.toNat / 64]? = some p) (v : Byte) :
    s.dataWriteOp v =
      { s with
        mem := s.mem.write (64 * p.toNat + s.port.offset.toNat % 64) v, port := s.portAfter } := by
  unfold State.dataWriteOp
  rw [if_pos ha, storeChain_of_page hp]
  exact portAdvance_of_attached ha

theorem State.dataReadOp_of_not_attached {s : State} (ha : s.port.mode ≠ .attached) :
    s.dataReadOp = { s with dOut := 0x00, event := s.event ||| 0x0400 } := by
  unfold State.dataReadOp
  rw [if_neg ha]
  rfl

theorem State.dataWriteOp_of_not_attached {s : State} (ha : s.port.mode ≠ .attached) (v : Byte) :
    s.dataWriteOp v = { s with event := s.event ||| 0x0400 } := by
  unfold State.dataWriteOp
  rw [if_neg ha]
  rfl

theorem exec_dataRead_of_high {s : State} (hr : s.resetLow = false) :
    exec .dataRead s = .next s.dataReadOp :=
  congrArg Host.Outcome.next (State.access_of_high hr State.dataReadOp)

theorem exec_dataWrite_of_high {s : State} (hr : s.resetLow = false) (v : Byte) :
    exec (.dataWrite v) s = .next (s.dataWriteOp v) :=
  congrArg Host.Outcome.next (State.access_of_high hr fun s => s.dataWriteOp v)

/-- Settles O11, from what a read and a write of DATA do in ATTACHED and outside it. -/
theorem dataPortReachesTheByteAtThePointer : Obligations.DataPortReachesTheByteAtThePointer := by
  intro s v hr
  rw [exec_dataRead_of_high hr, exec_dataWrite_of_high hr]
  constructor
  · rintro p _ ha hp rfl
    rw [State.dataReadOp_of_attached ha hp, State.dataWriteOp_of_attached ha hp]
    exact ⟨rfl, rfl⟩
  · intro ha
    rw [State.dataReadOp_of_not_attached ha, State.dataWriteOp_of_not_attached ha]
    exact ⟨rfl, rfl⟩

/-! ### RELEASE and SEEK -/

theorem State.isHeldHead_iff (s : State) (h : Page) :
    s.isHeldHead h = true ↔
      (s.pageTable.record h).headMark = true ∧ (s.pageTable.record h).owner = .held := by
  simp [State.isHeldHead]

theorem State.detachFrom_eq (s : State) (h : Page) :
    s.detachFrom h = { s with port := s.portWithout h } := by
  unfold State.detachFrom State.portWithout
  cases hm : s.port.mode with
  | detached => simp
  | attached | ended => by_cases hp : s.port.page = h <;> simp [hp]

theorem State.portWithout_congr {s t : State} (hp : t.port = s.port) (h : Page) :
    t.portWithout h = s.portWithout h := by
  simp [State.portWithout, hp]

theorem State.releaseBody_of_held {s : State} (hh : s.isHeldHead s.arg[0] = true) :
    s.releaseBody =
      (State.completed { s.release s.arg[0] with port := s.portWithout s.arg[0] } .ok).settle := by
  have hport : (s.release s.arg[0]).portWithout s.arg[0] = s.portWithout s.arg[0] :=
    portWithout_congr (by simp) _
  calc s.releaseBody = (((s.release s.arg[0]).detachFrom s.arg[0]).done .ok).settle := if_pos hh
    _ = _ := by rw [detachFrom_eq, hport, done_eq_completed]

theorem State.releaseBody_of_not_held {s : State} (hh : ¬ s.isHeldHead s.arg[0] = true) :
    s.releaseBody = s.completed .badChain := if_neg hh

theorem State.seekBody_of_not_held {s : State} (hh : ¬ s.isHeldHead s.arg[0] = true) :
    s.seekBody = s.completed .badChain := if_pos (by simpa [State.argByte] using hh)

/-- SEEK of a HELD chain turns on the offset alone. -/
theorem State.seekBody_of_held {s : State} (hh : s.isHeldHead s.arg[0] = true) :
    s.seekBody =
      if 64 * s.pageCount s.arg[0] ≤ s.arg[1].toNat then s.completed .badArg
      else State.completed { s with port := ⟨.attached, s.arg[0], s.arg[1]⟩ } .ok :=
  if_neg (by simpa [State.argByte] using hh)

theorem exec_release_of_free {s : State} (hr : s.resetLow = false) (hb : s.busy = none) :
    exec .release s = .next s.releaseBody :=
  congrArg Host.Outcome.next (State.strobe_of_free hr hb State.releaseBody)

theorem exec_seek_of_free {s : State} (hr : s.resetLow = false) (hb : s.busy = none) :
    exec .seek s = .next s.seekBody :=
  congrArg Host.Outcome.next (State.strobe_of_free hr hb State.seekBody)

/-- Settles O16, by whether ARG0 is the head of a HELD chain and then by SEEK's offset. -/
theorem releaseAndSeekOfHeldChains : Obligations.ReleaseAndSeekOfHeldChains := by
  rintro s _ hr hb rfl
  rw [exec_release_of_free hr hb, exec_seek_of_free hr hb]
  constructor
  · intro hn
    have hh : ¬ s.isHeldHead s.arg[0] = true := mt (s.isHeldHead_iff _).mp hn
    rw [State.releaseBody_of_not_held hh, State.seekBody_of_not_held hh]
    exact ⟨rfl, rfl⟩
  · intro hmark howner
    have hh : s.isHeldHead s.arg[0] = true := (s.isHeldHead_iff _).mpr ⟨hmark, howner⟩
    rw [State.releaseBody_of_held hh, State.seekBody_of_held hh]
    refine ⟨rfl, fun hoff => ?_, fun hoff => ?_⟩
    · rw [if_pos hoff]
    · rw [if_neg (Nat.not_le.mpr hoff)]

end Sys2Proof.Machine

/-!
PROOFS. The station table (R49 to R51): what STREAD shows of an entry, and that no command but STWRITE
and PIN_RESET changes the table.
-/
namespace Sys2Proof.Machine

/-! ### STREAD -/

/-- The mask-and-valid byte of RES2: the valid flag in bit 7 and the mask in bits 3 to 0. -/
theorem packMask_eq_or (e : StationEntry) :
    packMask e = (if e.valid then 0x80 else 0x00) ||| e.mask.setWidth 8 := by
  obtain ⟨valid, _, mask⟩ := e
  change BitVec.ofBool valid ++ (0#3 ++ mask) = (if valid then 0x80 else 0x00) ||| mask.setWidth 8
  revert valid mask
  decide

/-- Three bytes loaded from RES0 on take RES0 to RES2 and leave RES3 to RES7. -/
theorem State.loadRes_three (s : State) (a b c : Byte) :
    s.loadRes 0 [a, b, c] =
      { s with res := #v[a, b, c, s.res[3], s.res[4], s.res[5], s.res[6], s.res[7]] } := by
  have hres : (s.loadRes 0 [a, b, c]).res =
      #v[a, b, c, s.res[3], s.res[4], s.res[5], s.res[6], s.res[7]] := by
    refine Vector.ext fun j hj => ?_
    rw [State.loadRes_res s 0 _ j hj]
    match j, hj with
    | 0, _ | 1, _ | 2, _ | 3, _ | 4, _ | 5, _ | 6, _ | 7, _ => rfl
  rw [State.loadRes_eq, hres]

theorem exec_stread_of_free {s : State} (hr : s.resetLow = false) (hb : s.busy = none) :
    exec .stread s = .next s.streadBody :=
  congrArg Host.Outcome.next (State.strobe_of_free hr hb State.streadBody)

theorem State.streadBody_of_ge {s : State} (h : 16 ≤ s.arg[0].toNat) :
    s.streadBody = s.completed .badArg := by
  have harg : stationArg (s.argByte 0) = none := stationArg_of_ge h
  rw [State.streadBody, harg, State.done_eq_completed]

theorem State.streadBody_of_index {s : State} {i : Fin 16} (h : i.val = s.arg[0].toNat) :
    s.streadBody =
      State.completed
        { s with
          res := #v[s.arg[0], s.station[i].addr, packMask s.station[i], s.res[3], s.res[4], s.res[5],
            s.res[6], s.res[7]] } .ok := by
  have harg : stationArg (s.argByte 0) = some i := stationArg_of_eq h
  calc s.streadBody
      = (s.loadRes 0 [s.arg[0], s.station[i].addr, packMask s.station[i]]).done .ok := by
        rw [State.streadBody, harg]; rfl
    _ = _ := by rw [State.loadRes_three, State.done_eq_completed]

theorem State.reset_station_entry (i : Fin 16) : State.reset.station[i] = ⟨false, 0x00, 0⟩ :=
  Vector.getElem_replicate i.isLt

/-! ### The station table after a host command -/

theorem State.access_station {body : State → State} (h : ∀ s, (body s).station = s.station)
    (s : State) : (s.access body).station = s.station := by
  unfold State.access
  split
  · rfl
  · exact h s

theorem State.strobe_station {body : State → State} (h : ∀ s, (body s).station = s.station)
    (s : State) : (s.strobe body).station = s.station := by
  refine State.access_station (fun s => ?_) s
  split
  · exact State.raise_station s .cmdReject
  · exact h s

theorem State.allocPages_station (s : State) (n : Nat) : (s.allocPages n).station = s.station := by
  unfold State.allocPages
  repeat' split
  all_goals simp

theorem State.allocBody_station (s : State) : s.allocBody.station = s.station := by
  unfold State.allocBody
  dsimp only
  split
  · simp
  · simp [State.allocPages_station]

theorem State.releaseBody_station (s : State) : s.releaseBody.station = s.station := by
  unfold State.releaseBody
  dsimp only
  split <;> simp

theorem State.seekBody_station (s : State) : s.seekBody.station = s.station := by
  unfold State.seekBody
  dsimp only
  repeat' split
  all_goals simp

theorem State.takeBody_station (s : State) : s.takeBody.station = s.station := by
  unfold State.takeBody
  split <;> simp

theorem State.submitAccept_station (s : State) (c : Chan) :
    (s.submitAccept c).station = s.station := by
  simp [State.submitAccept]

theorem State.submitBody_station (s : State) : s.submitBody.station = s.station := by
  unfold State.submitBody
  dsimp only
  repeat' split
  all_goals simp [State.submitAccept_station]

theorem State.cancelBody_station (s : State) : s.cancelBody.station = s.station := by
  unfold State.cancelBody
  dsimp only
  repeat' split
  all_goals simp

theorem State.flushBody_station (s : State) : s.flushBody.station = s.station := by
  unfold State.flushBody
  dsimp only
  split <;> simp

theorem State.popdoneBody_station (s : State) : s.popdoneBody.station = s.station := by
  unfold State.popdoneBody
  split <;> simp

theorem State.enableBody_station (s : State) : s.enableBody.station = s.station := by
  unfold State.enableBody
  repeat' split
  all_goals simp

theorem State.disableBody_station (s : State) : s.disableBody.station = s.station := by
  unfold State.disableBody
  repeat' split
  all_goals simp

theorem State.abortBody_station (s : State) : s.abortBody.station = s.station := by
  unfold State.abortBody
  repeat' split
  all_goals simp

theorem State.clearseqBody_station (s : State) : s.clearseqBody.station = s.station := by
  simp [State.clearseqBody]

theorem State.streadBody_station (s : State) : s.streadBody.station = s.station := by
  unfold State.streadBody
  split <;> simp

theorem State.counterBody_station (s : State) : s.counterBody.station = s.station := by
  unfold State.counterBody
  dsimp only
  repeat' split
  all_goals simp

/-- Soft reset keeps the station table (R193). -/
theorem State.srstBody_station (s : State) : s.srstBody.station = s.station := by
  simp [State.srstBody, State.softReset]

theorem State.dataReadOp_station (s : State) : s.dataReadOp.station = s.station := by
  unfold State.dataReadOp
  split <;> simp

theorem State.dataWriteOp_station (s : State) (v : Byte) :
    (s.dataWriteOp v).station = s.station := by
  unfold State.dataWriteOp
  split <;> simp

theorem State.snapshot_station (s : State) (off : Offset) :
    (s.snapshot off).station = s.station := by
  unfold State.snapshot
  split <;> rfl

theorem State.hostRead_station (s : State) (off : Offset) :
    (s.hostRead off).station = s.station := by
  unfold State.hostRead
  split
  · exact State.dataReadOp_station s
  · exact State.snapshot_station _ off

theorem State.registerWriteOp_station (s : State) (off : Offset) (v : Byte) :
    (s.registerWriteOp off v).station = s.station := by
  unfold State.registerWriteOp
  split <;> rfl

/-- A write at an offset without a row of its own: the strobe of STWRITE is none of these. -/
theorem State.hostWrite_station {off : Offset} (h : off.writeHasOwnRow = false) (v : Byte)
    (s : State) : (s.hostWrite off v).station = s.station := by
  rw [State.hostWrite, if_neg (by simp [h])]
  exact State.registerWriteOp_station s off v

/-- A bus access other than STWRITE, spelled with its own row, leaves the station table. -/
theorem exec_access_station {i : Instr} {s t : State} (ha : isAccess i = true)
    (hw : i.wellFormed = true) (hi : i ≠ .stwrite) (h : exec i s = .next t) :
    t.station = s.station := by
  cases i <;> cases ha <;> cases h
  case alloc => exact State.strobe_station State.allocBody_station s
  case release => exact State.strobe_station State.releaseBody_station s
  case seek => exact State.strobe_station State.seekBody_station s
  case take => exact State.strobe_station State.takeBody_station s
  case submit => exact State.strobe_station State.submitBody_station s
  case cancel => exact State.strobe_station State.cancelBody_station s
  case flush => exact State.strobe_station State.flushBody_station s
  case popdone => exact State.strobe_station State.popdoneBody_station s
  case enable => exact State.strobe_station State.enableBody_station s
  case disable => exact State.strobe_station State.disableBody_station s
  case abort => exact State.strobe_station State.abortBody_station s
  case clearseq => exact State.strobe_station State.clearseqBody_station s
  case stwrite => exact absurd rfl hi
  case stread => exact State.strobe_station State.streadBody_station s
  case counter => exact State.strobe_station State.counterBody_station s
  case srst => exact State.strobe_station State.srstBody_station s
  case dataRead => exact State.access_station State.dataReadOp_station s
  case dataWrite v => exact State.access_station (State.dataWriteOp_station · v) s
  case eventWrite high v => exact State.access_station (State.eventClear_station · high v) s
  case lowByteReadSnapshot off => exact State.access_station (State.hostRead_station · off) s
  case registerWrite off v =>
    have hoff : off.writeHasOwnRow = false := by simpa [Instr.wellFormed] using hw
    exact State.access_station (State.hostWrite_station hoff v) s

/-! ### The station table after an event of a segment or of the part -/

/-- An event that acts only where its condition holds (log 2) keeps the station table if what it does
there keeps it. -/
theorem station_of_guarded {p : Prop} [Decidable p] {s t : State} (h : t.station = s.station) :
    (if p then t else s).station = s.station := by
  split
  · exact h
  · rfl

/-- An event of a segment or of the part, PIN_RESET aside, leaves the station table. -/
theorem exec_event_station {i : Instr} {s t : State} (ha : isAccess i = false)
    (hi : i ≠ .pinReset) (h : exec i s = .next t) : t.station = s.station := by
  cases i <;> cases ha <;> cases h
  case pinReset => exact absurd rfl hi
  case characterReceived c x | readbackCharacter c x => simp
  case receiveRequestServed => simp
  case holdTimerExpiry c => exact State.updChan_station s c _
  case gapExpiry c | skipGapExit c | backoffExpiry c | txAckTimeouts c | busyExpiry c
      | abortComplete c | refreshExpiry c | startBitDetected c | lineSampledHigh c =>
    exact station_of_guarded (by simp)
  case lineFault c =>
    split
    · simp
    · rfl
  case responseStart c | flowFrameStart c | attemptStart c =>
    dsimp only
    split
    · rfl
    · exact station_of_guarded (by split <;> simp)
  case missingReadback c =>
    split
    · rfl
    · split <;> simp
  case lineTransmitterQuiet c | collisionReported c | flowBackoffExpiry c =>
    split
    · rfl
    · exact station_of_guarded (by simp)

/-- No command but STWRITE and PIN_RESET changes the station table. -/
theorem exec_station {i : Instr} {s t : State} (hw : i.wellFormed = true) (hst : i ≠ .stwrite)
    (hpin : i ≠ .pinReset) (h : exec i s = .next t) : t.station = s.station := by
  cases ha : isAccess i with
  | true => exact exec_access_station ha hw hst h
  | false => exact exec_event_station ha hpin h

/-- Settles O32, from STREAD's two cases by its index, the table at pin reset, and the frame of every
other command. -/
theorem streadShowsAnEntry : Obligations.StreadShowsAnEntry := by
  refine ⟨fun s hr hb => ?_, State.reset_station_entry,
    fun _ _ _ hw hst hpin h => exec_station hw hst hpin h⟩
  rw [exec_stread_of_free hr hb]
  refine ⟨fun hge => congrArg Host.Outcome.next (State.streadBody_of_ge hge), ?_⟩
  rintro i _ hi rfl
  rw [State.streadBody_of_index hi, packMask_eq_or]

end Sys2Proof.Machine

/-!
PROOFS. The sequence table under CLEARSEQ (R78), and a strobe refused while ABORT is in progress (R185).
-/
namespace Sys2Proof.Machine

/-- A strobe while ABORT is in progress is a bus access that only raises CMD_REJECT (R185). -/
theorem State.strobe_of_busy {s : State} (hb : s.busy ≠ none) (f : State → State) :
    s.strobe f = s.access (·.raise .cmdReject) := by
  simp [State.strobe, State.access, Option.isSome_iff_ne_none.mpr hb]

theorem State.clearseqBody_eq (s : State) :
    s.clearseqBody =
      State.completed
        { s with
          seqTable := s.seqTable.filter fun e => !s.arg[0].getLsbD e.chan.val
          res := s.res.set 0 (BitVec.ofNat 8 (s.seqTable.length -
            (s.seqTable.filter fun e => !s.arg[0].getLsbD e.chan.val).length)) } .ok := rfl

theorem exec_clearseq_of_free {s : State} (hr : s.resetLow = false) (hb : s.busy = none) :
    exec .clearseq s = .next s.clearseqBody :=
  congrArg Host.Outcome.next (State.strobe_of_free hr hb State.clearseqBody)

theorem exec_clearseq_of_busy {s : State} (hb : s.busy ≠ none) :
    exec .clearseq s = .next (s.access (·.raise .cmdReject)) :=
  congrArg Host.Outcome.next (State.strobe_of_busy hb State.clearseqBody)

/-- The refusal of a strobe leaves the sequence table, at either level of RESET#. -/
theorem State.access_raise_seqTable (s : State) (e : Event) :
    (s.access (·.raise e)).seqTable = s.seqTable := by
  unfold State.access
  split
  · rfl
  · exact State.raise_seqTable s e

/-- Settles O30, by whether the command unit is free: CLEARSEQ runs, or it is refused. -/
theorem clearseqRemovesTheSelectedChannels :
    Obligations.ClearseqRemovesTheSelectedChannels := by
  refine fun s => ⟨?_, fun hbusy => ?_⟩
  · rintro hr hfree _ rfl
    rw [exec_clearseq_of_free hr hfree, State.clearseqBody_eq]
  · exact ⟨_, exec_clearseq_of_busy hbusy, State.access_raise_seqTable s .cmdReject⟩

end Sys2Proof.Machine

/-!
PROOFS. SUBMIT's check byte (R107): a wrong one refuses a HELD chain with CHECK, and no test after it
gives CHECK.
-/
namespace Sys2Proof.Machine

theorem exec_submit_of_free {s : State} (hr : s.resetLow = false) (hb : s.busy = none) :
    exec .submit s = .next s.submitBody :=
  congrArg Host.Outcome.next (State.strobe_of_free hr hb State.submitBody)

/-- The first test of R106 passed and the second failed: nothing else is looked at. -/
theorem State.submitBody_of_check_wrong {s : State} (hh : s.isHeldHead s.arg[0] = true)
    (hck : s.arg[5] ≠ ~~~(s.arg[2] ^^^ s.arg[3])) : s.submitBody = s.completed .check := by
  have hheld : ¬ (!s.isHeldHead (s.argByte 0)) = true := by simpa [State.argByte] using hh
  have hwrong : s.argByte 5 ≠ checkByte (s.argByte 2) (s.argByte 3) := hck
  rw [State.submitBody, if_neg hheld, if_pos hwrong, State.done_eq_completed]

/-- What SUBMIT can do past the test of its check byte (R106): the three refusals still to come, and
acceptance. -/
theorem State.submitBody_cases_of_check_right {s : State} (hh : s.isHeldHead s.arg[0] = true)
    (hck : s.arg[5] = ~~~(s.arg[2] ^^^ s.arg[3])) :
    s.submitBody = s.completed .badArg ∨ s.submitBody = s.completed .badLen ∨
      s.submitBody = s.completed .qFull ∨ ∃ c, s.submitBody = s.submitAccept c := by
  have hheld : ¬ (!s.isHeldHead (s.argByte 0)) = true := by simpa [State.argByte] using hh
  have hright : ¬ s.argByte 5 ≠ checkByte (s.argByte 2) (s.argByte 3) := not_not_intro hck
  rw [State.submitBody, if_neg hheld, if_neg hright]
  cases submitChan (s.argByte 1) with
  | none => exact .inl rfl
  | some c =>
    dsimp only
    split
    · exact .inl rfl
    · split
      · exact .inr (.inl rfl)
      · split
        · exact .inr (.inr (.inl rfl))
        · exact .inr (.inr (.inr ⟨c, rfl⟩))

theorem State.submitAccept_cmdStatus (s : State) (c : Chan) : (s.submitAccept c).cmdStatus = .ok :=
  State.done_cmdStatus _ .ok

theorem State.submitBody_cmdStatus_ne_check {s : State} (hh : s.isHeldHead s.arg[0] = true)
    (hck : s.arg[5] = ~~~(s.arg[2] ^^^ s.arg[3])) : s.submitBody.cmdStatus ≠ .check := by
  obtain h | h | h | ⟨c, h⟩ := State.submitBody_cases_of_check_right hh hck <;> rw [h]
  · exact nofun
  · exact nofun
  · exact nofun
  · rw [State.submitAccept_cmdStatus]
    exact nofun

/-- Settles O19, by whether ARG5 is the check byte of ARG2 and ARG3; then the examples of R107. -/
theorem submitComparesTheCheckByte : Obligations.SubmitComparesTheCheckByte := by
  refine ⟨fun s hr hb hh => ?_, by decide, by decide, by decide, by decide⟩
  rw [exec_submit_of_free hr hb]
  exact ⟨fun hwrong => congrArg Host.Outcome.next (State.submitBody_of_check_wrong hh hwrong),
    fun hright => ⟨_, rfl, State.submitBody_cmdStatus_ne_check hh hright⟩⟩

end Sys2Proof.Machine

/-!
PROOFS. The deliveries to the sequencer (R136) that are stray (R142).
-/
namespace Sys2Proof.Machine

theorem Channel.matchesDelivery_iff (ch : Channel) (src : Byte) (q : BitVec 3) :
    ch.matchesDelivery src q = true ↔
      ∃ e es, ch.txq = e :: es ∧ e.active = true ∧ e.ar = true ∧ e.dest = src ∧ e.seq = q := by
  unfold Channel.matchesDelivery
  cases ch.txq with
  | nil => simp
  | cons e es => simp [and_assoc]

theorem SeqState.lateAck_iff (st : SeqState) :
    st.lateAck = true ↔ st = .defer ∨ st = .backoff ∨ st = .busyWait := by
  cases st <;> simp [SeqState.lateAck]

theorem State.deliver_of_no_match {s : State} {c : Chan} {src : Byte} {q : BitVec 3}
    (hm : ¬ (s.chan c).matchesDelivery src q = true) (nak : Bool) :
    s.deliver c nak src q = s.count c .strayResponses := if_neg hm

/-- A NAK outside AWAIT_ACK is stray, whatever it names. -/
theorem State.deliver_nak_of_not_awaiting {s : State} {c : Chan}
    (hw : (s.chan c).sequencer.state ≠ .awaitAck) (src : Byte) (q : BitVec 3) :
    s.deliver c true src q = s.count c .strayResponses := by
  unfold State.deliver
  dsimp only
  split
  · cases hst : (s.chan c).sequencer.state with
    | awaitAck => exact absurd hst hw
    | idle | defer | attempt | backoff | busyWait | completeWait => rfl
  · rfl

/-- An ACK outside AWAIT_ACK and the states of a late ACK is stray, whatever it names. -/
theorem State.deliver_ack_of_not_awaiting {s : State} {c : Chan}
    (hw : (s.chan c).sequencer.state ≠ .awaitAck)
    (hl : ¬ (s.chan c).sequencer.state.lateAck = true) (src : Byte) (q : BitVec 3) :
    s.deliver c false src q = s.count c .strayResponses := by
  unfold State.deliver
  dsimp only
  split
  · cases hst : (s.chan c).sequencer.state with
    | awaitAck => exact absurd hst hw
    | defer | backoff | busyWait => exact absurd (by rw [hst]; rfl) hl
    | idle | attempt | completeWait => rfl
  · rfl

/-- Settles O46, by whether the delivery names the head entry, and then by its kind. -/
theorem strayDeliveryOnlyCounts : Obligations.StrayDeliveryOnlyCounts := by
  rintro s c nak src q _ rfl hstray
  by_cases hm : (s.chan c).matchesDelivery src q = true
  · have hnot := fun h => hstray ⟨(Channel.matchesDelivery_iff _ _ _).mp hm, h⟩
    have hw : (s.chan c).sequencer.state ≠ .awaitAck := fun h => hnot (.inl h)
    cases nak with
    | true => exact State.deliver_nak_of_not_awaiting hw src q
    | false =>
      have hl : ¬ (s.chan c).sequencer.state.lateAck = true := fun h =>
        hnot (.inr ⟨rfl, (SeqState.lateAck_iff _).mp h⟩)
      exact State.deliver_ack_of_not_awaiting hw hl src q
  · exact State.deliver_of_no_match hm nak

end Sys2Proof.Machine

/-!
PROOFS. The counters (R175, R176): what COUNTER reads and clears, and what one count changes.
-/
namespace Sys2Proof.Machine

/-! ### COUNTER -/

/-- Two bytes loaded from RES0 on take RES0 and RES1 and leave RES2 to RES7. -/
theorem State.loadRes_two (s : State) (a b : Byte) :
    s.loadRes 0 [a, b] =
      { s with res := #v[a, b, s.res[2], s.res[3], s.res[4], s.res[5], s.res[6], s.res[7]] } := by
  have hres : (s.loadRes 0 [a, b]).res =
      #v[a, b, s.res[2], s.res[3], s.res[4], s.res[5], s.res[6], s.res[7]] := by
    refine Vector.ext fun j hj => ?_
    rw [State.loadRes_res s 0 _ j hj]
    match j, hj with
    | 0, _ | 1, _ | 2, _ | 3, _ | 4, _ | 5, _ | 6, _ | 7, _ => rfl
  rw [State.loadRes_eq, hres]

theorem exec_counter_of_free {s : State} (hr : s.resetLow = false) (hb : s.busy = none) :
    exec .counter s = .next s.counterBody :=
  congrArg Host.Outcome.next (State.strobe_of_free hr hb State.counterBody)

theorem State.counterBody_of_out_of_range {s : State}
    (h : 4 ≤ s.arg[0].toNat ∨ 16 ≤ s.arg[1].toNat) : s.counterBody = s.completed .badArg := by
  rw [State.counterBody]
  obtain hc | hk := h
  · have hchan : chanArg (s.argByte 0) = none := chanArg_of_ge hc
    rw [hchan, State.done_eq_completed]
  · have hindex : stationArg (s.argByte 1) = none := stationArg_of_ge hk
    cases chanArg (s.argByte 0) <;> rw [hindex, State.done_eq_completed]

/-- COUNTER within its ranges: bit 0 of ARG2 alone decides the clear (R176, R195). -/
theorem State.counterBody_of_index {s : State} {c : Chan} {k : Fin 16}
    (hc : c.val = s.arg[0].toNat) (hk : k.val = s.arg[1].toNat) {r : Vector Byte 8}
    (hres : r = #v[(s.chan c).counters[k].extractLsb' 0 8, (s.chan c).counters[k].extractLsb' 8 8,
      s.res[2], s.res[3], s.res[4], s.res[5], s.res[6], s.res[7]]) :
    s.counterBody =
      State.completed
        (if s.arg[2].getLsbD 0 then
          { s.updChan c fun ch => { ch with counters := ch.counters.set k 0 } with res := r }
        else { s with res := r }) .ok := by
  have hchan : chanArg (s.argByte 0) = some c := chanArg_of_eq hc
  have hindex : stationArg (s.argByte 1) = some k := stationArg_of_eq hk
  rw [State.counterBody, hchan, hindex, hres]
  dsimp only
  rw [State.loadRes_two, State.done_eq_completed]
  rfl

/-! ### One count -/

/-- A counter below FFFFh counts one up. -/
theorem Channel.counted_of_ne {k : Counter} {ch : Channel} {v : Half}
    (hv : ch.counters[k.index] = v) (hne : v ≠ 0xFFFF) :
    ch.counted k = { ch with counters := ch.counters.set k.index (v + 1) } := by
  rw [Channel.counted, countUp, Channel.counter, hv, if_neg hne]

/-- A counter at FFFFh stays there. -/
theorem Channel.counted_of_full {k : Counter} {ch : Channel} (h : ch.counters[k.index] = 0xFFFF) :
    ch.counted k = ch := by
  have hkeep : ch.counters.set k.index ch.counters[k.index] = ch.counters :=
    Vector.set_getElem_self k.index.isLt
  rw [Channel.counted, countUp, Channel.counter, if_pos h, hkeep]

/-- A count from any value but FFFEh raises nothing. -/
theorem State.count_of_ne {s : State} {c : Chan} {k : Counter}
    (h : (s.chan c).counters[k.index] ≠ 0xFFFE) : s.count c k = s.updChan c (Channel.counted k) := by
  have hquiet : ((s.chan c).counter k == 0xFFFE) = false := beq_eq_false_iff_ne.mpr h
  rw [State.count, hquiet, State.raiseIf_false]

theorem State.count_of_lt {s : State} {c : Chan} {k : Counter}
    (h : (s.chan c).counters[k.index].toNat < 0xFFFE) :
    s.count c k = s.updChan c fun ch =>
      { ch with counters := ch.counters.set k.index ((s.chan c).counters[k.index] + 1) } := by
  rw [State.count_of_ne (by bv_omega)]
  exact State.updChan_congr (Channel.counted_of_ne rfl (by bv_omega))

/-- The count that takes a counter to FFFFh raises COUNTER_SAT. -/
theorem State.count_of_last {s : State} {c : Chan} {k : Counter}
    (h : (s.chan c).counters[k.index] = 0xFFFE) :
    s.count c k =
      (s.updChan c fun ch => { ch with counters := ch.counters.set k.index 0xFFFF }).raise
        .counterSat := by
  have hsat : ((s.chan c).counter k == 0xFFFE) = true := beq_iff_eq.mpr h
  rw [State.count, hsat, State.raiseIf_true]
  exact congrArg (State.raise · .counterSat)
    (State.updChan_congr (Channel.counted_of_ne h (by decide)))

theorem State.count_of_full {s : State} {c : Chan} {k : Counter}
    (h : (s.chan c).counters[k.index] = 0xFFFF) : s.count c k = s := by
  rw [State.count_of_ne (by rw [h]; decide)]
  exact State.updChan_id (Channel.counted_of_full h)

/-- Settles O33, from COUNTER's cases by its arguments, and the count by the counter's value. -/
theorem countersCountReadAndClear : Obligations.CountersCountReadAndClear := by
  refine ⟨by decide, fun s hr hb => ?_, ?_⟩
  · rw [exec_counter_of_free hr hb]
    refine ⟨fun hout => congrArg Host.Outcome.next (State.counterBody_of_out_of_range hout), ?_⟩
    rintro c k _ r hc hk rfl hres
    rw [State.counterBody_of_index hc hk hres]
    exact ⟨fun hkeep => by rw [hkeep, if_neg Bool.false_ne_true],
      fun hclear => by rw [if_pos hclear]⟩
  · rintro s c k _ rfl
    exact ⟨State.count_of_lt, State.count_of_last, State.count_of_full⟩

end Sys2Proof.Machine

/-!
PROOFS. The two bytes of a 16-bit value.
-/
namespace Sys2Proof

theorem hiByte_half (hi lo : Byte) : hiByte (half hi lo) = hi := by
  unfold half hiByte
  ext i hi
  simp
  grind

theorem loByte_half (hi lo : Byte) : loByte (half hi lo) = lo := by
  unfold half loByte
  ext i hi
  simp
  grind

theorem half_hiByte_loByte (h : Half) : half (hiByte h) (loByte h) = h := by
  unfold half hiByte loByte
  ext i hi
  simp
  grind

theorem half_and_half (a b c d : Byte) : half a b &&& half c d = half (a &&& c) (b &&& d) :=
  BitVec.and_append

theorem half_or_half (a b c d : Byte) : half a b ||| half c d = half (a ||| c) (b ||| d) :=
  BitVec.or_append

/-- A mask of the high byte alone looks at the high byte alone. -/
theorem and_half_zero_eq_zero_iff (h : Half) (m : Byte) : h &&& half m 0 = 0 ↔ hiByte h &&& m = 0 := by
  have hparts : h &&& half m 0 = half (hiByte h &&& m) (loByte h &&& 0) := by
    rw [← half_and_half, half_hiByte_loByte]
  rw [hparts]
  constructor
  · intro heq
    rw [← hiByte_half (hiByte h &&& m) (loByte h &&& 0), heq]
    rfl
  · intro heq
    rw [heq]
    simp
    rfl
end Sys2Proof

/-!
PROOFS. A command as a change of the part: its shape, the strobes by their bodies, and that an access
spelled with the wrong row is the one spelled with its own. A law that every well-formed command and
the clock keep is kept by every step.
-/
namespace Sys2Proof.Machine

/-! ### The strobes -/

/-- What the command unit does at a strobe (section 10.3). -/
def strobeBody : Instr → State → State
  | .alloc => State.allocBody
  | .release => State.releaseBody
  | .seek => State.seekBody
  | .take => State.takeBody
  | .submit => State.submitBody
  | .cancel => State.cancelBody
  | .flush => State.flushBody
  | .popdone => State.popdoneBody
  | .enable => State.enableBody
  | .disable => State.disableBody
  | .abort => State.abortBody
  | .clearseq => State.clearseqBody
  | .stwrite => State.stwriteBody
  | .stread => State.streadBody
  | .counter => State.counterBody
  | .srst => State.srstBody
  | _ => id

theorem exec_strobe {i : Instr} (hi : i ∈ strobes) (s : State) :
    exec i s = .next (s.strobe (strobeBody i)) := by
  simp only [strobes, List.mem_cons, List.not_mem_nil, or_false] at hi
  rcases hi with rfl | rfl | rfl | rfl | rfl | rfl | rfl | rfl | rfl | rfl | rfl | rfl | rfl | rfl |
    rfl | rfl <;> rfl

theorem exec_strobe_of_free {i : Instr} (hi : i ∈ strobes) {s : State} (hr : s.resetLow = false)
    (hb : s.busy = none) : exec i s = .next (strobeBody i s) := by
  rw [exec_strobe hi, State.strobe_of_free hr hb]

/-- A strobe is an access, so that taking it as one again changes nothing. -/
theorem State.access_strobe (s : State) (f : State → State) :
    s.access (fun s => s.strobe f) = s.strobe f := by
  cases hr : s.resetLow with
  | true => simp [State.strobe, State.access, hr]
  | false => simp [State.strobe, State.access, hr]

/-- Settles O6: the body of a strobe is not run while the command unit is busy. -/
theorem busyUnitRefusesEveryStrobe : Obligations.BusyUnitRefusesEveryStrobe := by
  intro s c i hr hb hi
  rw [exec_strobe hi, State.strobe_of_busy (by simp [hb]), State.access_of_high hr]
  rfl

/-! ### Accesses spelled with another row -/

theorem strobeOf_mem {off : Offset} {i : Instr} (h : strobeOf off = some i) : i ∈ strobes := by
  unfold strobeOf at h
  split at h <;> cases h <;> decide

theorem strobeOf_none_of_lt {off : Offset} (h : off.toNat < 0x30) : strobeOf off = none := by
  revert off
  decide

theorem exec_registerWrite (off : Offset) (v : Byte) (s : State) :
    exec (.registerWrite off v) s = .next (s.access fun s => s.hostWrite off v) := rfl

/-- Every offset at or above 30h is a strobe's. -/
theorem exists_strobeOf {off : Offset} (h : 0x30 ≤ off.toNat) :
    ∃ i ∈ strobes, strobeOf off = some i := by
  revert off
  decide

theorem State.strobeAt_of_strobeOf {off : Offset} {i : Instr} (h : strobeOf off = some i) (s : State) :
    s.strobeAt off = s.strobe (strobeBody i) := by
  unfold strobeOf at h
  unfold State.strobeAt
  generalize off.toNat = n at h ⊢
  split at h <;> cases h <;> rfl

/-- A host write of the window is the command of its offset: an offset with a row of its own does what
that row does (R178, R179). -/
theorem exec_registerWrite_eq_writeCommand (off : Offset) (v : Byte) (s : State) :
    exec (.registerWrite off v) s = exec (writeCommand off v) s := by
  rw [exec_registerWrite]
  by_cases hlt : off.toNat < 0x30
  · rw [writeCommand, strobeOf_none_of_lt hlt]
    by_cases h5 : off = 0x05
    · subst h5; rfl
    by_cases h6 : off = 0x06
    · subst h6; rfl
    by_cases h17 : off = 0x17
    · subst h17; rfl
    simp only [beq_iff_eq, h5, h6, h17, if_false]
    rfl
  · obtain ⟨i, hi, hs⟩ := exists_strobeOf (Nat.not_lt.mp hlt)
    have hne : ∀ k : Offset, k.toNat < 0x30 → ¬ off = k := by
      rintro k hk rfl
      exact hlt hk
    have hrow : off.writeHasOwnRow = true := by simp [Offset.writeHasOwnRow, Nat.not_lt.mp hlt]
    have hwrite : ∀ t : State, t.hostWrite off v = t.strobe (strobeBody i) := fun t => by
      rw [State.hostWrite, if_pos hrow, if_neg (hne 0x05 (by decide)), if_neg (hne 0x06 (by decide)),
        if_neg (hne 0x17 (by decide)), State.strobeAt_of_strobeOf hs]
    simp only [writeCommand, hs, exec_strobe hi, hwrite, State.access_strobe]

/-- A read of DATA by its offset is a DATA_READ. -/
theorem exec_lowByteReadSnapshot_data (s : State) :
    exec (.lowByteReadSnapshot 0x17) s = exec .dataRead s := rfl

theorem writeCommand_wellFormed (off : Offset) (v : Byte) : (writeCommand off v).wellFormed = true := by
  by_cases hlt : off.toNat < 0x30
  · rw [writeCommand, strobeOf_none_of_lt hlt]
    dsimp only
    split
    · rfl
    split
    · rfl
    split
    · rfl
    · simp_all [Instr.wellFormed, Offset.writeHasOwnRow]
  · obtain ⟨i, hi, hs⟩ := exists_strobeOf (Nat.not_lt.mp hlt)
    have hwf : ∀ j ∈ strobes, j.wellFormed = true := by decide
    simpa only [writeCommand, hs] using hwf i hi

/-- Every command does what a well-formed one does. -/
theorem exists_wellFormed (i : Instr) (s : State) :
    ∃ j : Instr, j.wellFormed = true ∧ exec i s = exec j s := by
  by_cases hw : i.wellFormed = true
  · exact ⟨i, hw, rfl⟩
  · cases i with
    | registerWrite off v =>
      exact ⟨_, writeCommand_wellFormed off v, exec_registerWrite_eq_writeCommand off v s⟩
    | lowByteReadSnapshot off =>
      have hoff : off = 0x17 := by simpa [Instr.wellFormed, Offset.readHasOwnRow] using hw
      subst hoff
      exact ⟨.dataRead, rfl, exec_lowByteReadSnapshot_data s⟩
    | _ => exact absurd rfl hw

/-! ### What a step is -/

/-- Settles O1, by the definition of a step. -/
theorem stepRunsTheFrontCommand : Obligations.StepRunsTheFrontCommand := by
  intro s c q hq
  rw [step, hq]

theorem exists_exec (i : Instr) (s : State) : ∃ t, exec i s = .next t := by
  cases i <;> exact ⟨_, rfl⟩

/-- A law that no queue bears on, that every well-formed command keeps and that the clock keeps, is kept
by every step. -/
theorem step_keeps {P : State → Prop} (hqueue : ∀ s q, P s → P { s with pending := q })
    (hexec : ∀ (i : Instr) (s t : State), i.wellFormed = true → P s → exec i s = .next t → P t)
    (hclock : ∀ s, P s → P s.advance) {s t : State} (hs : P s) (h : step s = .next t) : P t := by
  have hall : ∀ (i : Instr) (s t : State), P s → exec i s = .next t → P t := by
    intro i s t hs h
    obtain ⟨j, hj, heq⟩ := exists_wellFormed i s
    exact hexec j s t hj hs (heq ▸ h)
  unfold step at h
  split at h
  · exact hall _ _ _ (hqueue _ _ hs) h
  · split at h
    · exact hall _ _ _ hs h
    · cases h
      exact hclock s hs

/-- A law that a bus access keeps is kept with RESET# low, when none is taken (R191). -/
theorem State.access_keeps {P : State → Prop} {f : State → State} {s : State} (hs : P s)
    (hf : s.resetLow = false → P (f s)) : P (s.access f) := by
  cases hr : s.resetLow with
  | true => rwa [State.access_of_low hr]
  | false => rw [State.access_of_high hr]; exact hf hr

/-- A law that a strobe's body keeps is kept where the strobe is refused, if CMD_REJECT keeps it. -/
theorem State.strobe_keeps {P : State → Prop} {f : State → State} {s : State} (hs : P s)
    (hreject : P (s.raise .cmdReject)) (hf : s.busy = none → P (f s)) : P (s.strobe f) := by
  cases hb : s.busy with
  | none =>
    refine State.access_keeps hs fun _ => ?_
    simpa [hb] using hf hb
  | some c =>
    rw [State.strobe_of_busy (by simp [hb])]
    exact State.access_keeps hs fun _ => hreject

end Sys2Proof.Machine

/-!
PROOFS. What every command leaves in order, operation by operation: the queue of commands, the canonical
form of frame memory and the page table, the capacities and the bits that registers do not define, and,
but for ABORT and the resets, which channel is ABORTING. Each operation is one lemma about `Steady`; the
laws of single steps follow from it.
-/
namespace Sys2Proof.Machine

/-! ### Capacities and reserved bits as one law -/

/-- The capacity of a transmit queue and the bits that FLAGS does not define (R104, R179). -/
def Channel.Limits (ch : Channel) : Prop :=
  ch.txq.length ≤ Config.txqCapacity ∧ ch.flags &&& 0xC0 = 0

/-- The capacities, the distinct keys of the sequence table and the bits that registers do not define
(R73, R93, R104, R115, R179, R188, R189). -/
structure State.Limits (s : State) : Prop where
  rfq : s.rfq.length ≤ Config.rfqCapacity
  tcq : s.tcq.length ≤ Config.tcqCapacity
  seqLength : s.seqTable.length ≤ Config.seqCapacity
  seqKeys : s.SeqKeysDistinct
  event : s.event &&& 0xE000 = 0
  eventEn : s.eventEn &&& 0xE000 = 0
  condEn : s.condEn &&& 0xF0 = 0
  chans : ∀ c, (s.chan c).Limits

theorem State.limits_iff (s : State) :
    s.Limits ↔ s.Bounded ∧ s.SeqKeysDistinct ∧ s.ReservedZero := by
  constructor
  · intro h
    exact ⟨⟨h.rfq, h.tcq, h.seqLength, fun c => (h.chans c).1⟩, h.seqKeys, h.event, h.eventEn,
      h.condEn, fun c => (h.chans c).2⟩
  · rintro ⟨⟨hrfq, htcq, hseq, htxq⟩, hkeys, hev, hen, hcond, hflags⟩
    exact ⟨hrfq, htcq, hseq, hkeys, hev, hen, hcond, fun c => ⟨htxq c, hflags c⟩⟩

/-! ### What follows a state -/

/-- A channel that an operation may leave in the place of another: within the limits if that was, and
ABORTING exactly if that was. -/
structure Channel.Within (a b : Channel) : Prop where
  limits : a.Limits → b.Limits
  aborting : b.mode = .aborting ↔ a.mode = .aborting

theorem Channel.Within.of_same {a b : Channel} (hq : b.txq = a.txq) (hf : b.flags = a.flags)
    (hm : b.mode = a.mode) : a.Within b :=
  ⟨fun h => by rw [Channel.Limits, hq, hf]; exact h, by rw [hm]⟩

/-- A channel with fewer entries queued and nothing else of its limits changed. -/
theorem Channel.Within.of_fewer {a b : Channel} (hq : b.txq.length ≤ a.txq.length)
    (hf : b.flags = a.flags) (hm : b.mode = a.mode) : a.Within b :=
  ⟨fun h => ⟨Nat.le_trans hq h.1, hf ▸ h.2⟩, by rw [hm]⟩

/-- State t has s's queue of commands, and keeps the canonical form and the limits if s does. -/
structure State.Orderly (s t : State) : Prop where
  pending : t.pending = s.pending
  canonical : s.Canonical → t.Canonical
  limits : s.Limits → t.Limits

/-- State t is orderly after s, and has the same command unit busy and the same channels ABORTING. -/
structure State.Steady (s t : State) : Prop extends State.Orderly s t where
  busy : t.busy = s.busy
  aborting : ∀ c, (t.chan c).mode = .aborting ↔ (s.chan c).mode = .aborting

theorem State.Orderly.trans {s t u : State} (h : s.Orderly t) (g : t.Orderly u) : s.Orderly u :=
  ⟨g.pending.trans h.pending, fun hs => g.canonical (h.canonical hs),
    fun hs => g.limits (h.limits hs)⟩

namespace State.Steady

theorem refl (s : State) : s.Steady s := ⟨⟨rfl, id, id⟩, rfl, fun _ => .rfl⟩

theorem trans {s t u : State} (h : s.Steady t) (g : t.Steady u) : s.Steady u :=
  ⟨h.toOrderly.trans g.toOrderly, g.busy.trans h.busy, fun c => (g.aborting c).trans (h.aborting c)⟩

theorem busyIffAborting {s t : State} (h : s.Steady t) (hs : s.BusyIffAborting) : t.BusyIffAborting :=
  fun c => by rw [h.aborting c, h.busy]; exact hs c

end State.Steady

/-! ### Elementary changes -/

/-- The parts of the state that these laws look at. -/
def State.ordered (s : State) :=
  (s.pending, s.mem, s.pageTable, s.rfq, s.tcq, s.seqTable, s.event, s.eventEn, s.condEn, s.busy, s.chans)

namespace State.Steady

theorem of_ordered_eq {s t : State} (h : t.ordered = s.ordered) : s.Steady t := by
  simp only [State.ordered, Prod.mk.injEq] at h
  obtain ⟨hpend, hmem, htable, hrfq, htcq, hseq, hev, hen, hcond, hbusy, hchans⟩ := h
  have hchan : ∀ c, t.chan c = s.chan c := fun c => by rw [State.chan_def, State.chan_def, hchans]
  refine ⟨⟨hpend, fun h => h.congr hmem htable, fun h => ?_⟩, hbusy, fun c => by rw [hchan]⟩
  exact ⟨hrfq ▸ h.rfq, htcq ▸ h.tcq, hseq ▸ h.seqLength,
    by rw [State.SeqKeysDistinct, hseq]; exact h.seqKeys, hev ▸ h.event, hen ▸ h.eventEn,
    hcond ▸ h.condEn, fun c => by rw [hchan]; exact h.chans c⟩

/-- A change of parts that the laws do not look at. -/
theorem same {s t u : State} (h : s.Steady t) (hu : u.ordered = t.ordered := by rfl) : s.Steady u :=
  h.trans (of_ordered_eq hu)

/-- A change of channels alone. -/
theorem chans {s t : State} (h : s.Steady t) (q : Quad Channel)
    (hq : ∀ c, (t.chan c).Within (q.get c)) : s.Steady { t with chans := q } :=
  h.trans
    ⟨⟨rfl, fun hc => hc.congr rfl rfl, fun hl =>
      { hl with chans := fun c => (hq c).limits (hl.chans c), seqKeys := hl.seqKeys }⟩,
      rfl, fun c => (hq c).aborting⟩

theorem chan {s t : State} (h : s.Steady t) (c : Chan) {f : Channel → Channel}
    (hf : (t.chan c).Within (f (t.chan c)) := by exact .of_same rfl rfl rfl) :
    s.Steady (t.updChan c f) := by
  refine h.chans _ fun d => ?_
  change (t.chan d).Within ((t.updChan c f).chan d)
  rw [State.chan_updChan]
  split
  · next hd => subst hd; exact hf
  · exact .of_same rfl rfl rfl

theorem raise {s t : State} (h : s.Steady t) (e : Event) : s.Steady (t.raise e) := by
  refine h.trans ⟨⟨rfl, fun hc => hc.raise e, fun hl => ?_⟩, rfl, fun _ => .rfl⟩
  refine { hl with event := ?_, seqKeys := hl.seqKeys, chans := hl.chans }
  have hmask : e.mask &&& 0xE000 = 0 := by cases e <;> decide
  change (t.event ||| e.mask) &&& 0xE000 = 0
  rw [show (t.event ||| e.mask) &&& 0xE000 = (t.event &&& 0xE000) ||| (e.mask &&& 0xE000) from
    by ext; simp; grind, hl.event, hmask]
  rfl

theorem raiseIf {s t : State} (h : s.Steady t) (b : Bool) (e : Event) : s.Steady (t.raiseIf b e) := by
  cases b with
  | true => exact h.raise e
  | false => exact h

theorem count {s t : State} (h : s.Steady t) (c : Chan) (k : Counter) : s.Steady (t.count c k) :=
  (h.chan c).raiseIf _ _

theorem settle {s t : State} (h : s.Steady t) : s.Steady t.settle := by
  refine (h.chans _ fun c => ?_).raiseIf _ _
  rw [Quad.get_map, ← State.chan_def, Channel.settle]
  split
  · next hr =>
    obtain ⟨hm, -⟩ := (t.chan c).stopReady_iff.mp hr
    exact ⟨id, by simp [Channel.toOff, hm]⟩
  · exact .of_same rfl rfl rfl

/-- Changes of frame memory, the page records and the free list. -/
theorem pages {s t : State} (h : s.Steady t) {m : Memory} {p : PageTable} {l : List Page}
    (hm : t.Canonical → m.wf) (hp : t.Canonical → p.wf) :
    s.Steady { t with mem := m, pageTable := p, freeList := l } :=
  h.trans ⟨⟨rfl, fun hc => ⟨hm hc, hp hc⟩, fun hl => { hl with seqKeys := hl.seqKeys }⟩, rfl,
    fun _ => .rfl⟩

theorem enterLow (ch : Channel) : ch.Within ch.enterLow := by
  rw [Channel.enterLow_eq]
  exact .of_same rfl rfl rfl

theorem enterNormal (ch : Channel) : ch.Within ch.enterNormal := by
  rw [Channel.enterNormal_eq]
  exact .of_same rfl rfl rfl

theorem poolJudge {s t : State} (h : s.Steady t) : s.Steady t.poolJudge := by
  have hlow : s.Steady { t with pool := .low } := h.same
  have hnormal : s.Steady { t with pool := .normal } := h.same
  unfold State.poolJudge
  split
  · split
    · exact (hlow.chans _ fun c => by rw [Quad.get_map]; exact enterLow _).raise _
    · exact h
  · split
    · exact (hnormal.chans _ fun c => by rw [Quad.get_map]; exact enterNormal _).raise _
    · exact h

/-! ### Chains -/

theorem grant {s t : State} (h : s.Steady t) (o : Owner) (n : Nat) : s.Steady (t.grant o n) :=
  (h.pages (fun hc => hc.1) fun hc => PageTable.wf_link o true _ hc.2).poolJudge

theorem release {s t : State} (h : s.Steady t) (p : Page) : s.Steady (t.release p) :=
  (h.pages (fun hc => hc.1) fun hc => PageTable.wf_release _ hc.2).poolJudge

theorem setOwner {s t : State} (h : s.Steady t) (p : Page) (o : Owner) : s.Steady (t.setOwner p o) :=
  h.pages (fun hc => hc.1) fun hc => PageTable.wf_own o _ hc.2

theorem storeChain {s t : State} (h : s.Steady t) (p : Page) (off : Nat) (v : Byte) :
    s.Steady (t.storeChain p off v) := by
  unfold State.storeChain
  split
  · exact h.pages (fun hc => Memory.wf_write hc.1 _ _) fun hc => hc.2
  · exact h

theorem storeBytes {s t : State} (h : s.Steady t) (p : Page) (off : Nat) (l : List Byte) :
    s.Steady (t.storeBytes p off l) := by
  induction l generalizing t off with
  | nil => exact h
  | cons b bs ih => exact ih (h.storeChain p off b) (off + 1)

theorem releaseAll {s t : State} (h : s.Steady t) (l : List TxEntry) : s.Steady (t.releaseAll l) := by
  induction l generalizing t with
  | nil => exact h
  | cons e es ih => exact ih (h.release e.head)

/-! ### Queues and tables -/

/-- A received frame queue changed within its capacity. -/
theorem frames {s t : State} (h : s.Steady t) {r : List RxEntry} {a : Half}
    (hr : s.Limits → r.length ≤ Config.rfqCapacity) : s.Steady { t with rfq := r, arrival := a } :=
  ⟨⟨h.pending, fun hc => (h.canonical hc).congr rfl rfl, fun hs =>
    { h.limits hs with rfq := hr hs, seqKeys := (h.limits hs).seqKeys }⟩, h.busy, h.aborting⟩

/-- A completion queue changed within its capacity. -/
theorem records {s t : State} (h : s.Steady t) {q : List TxRecord}
    (hq : s.Limits → q.length ≤ Config.tcqCapacity) : s.Steady { t with tcq := q } :=
  ⟨⟨h.pending, fun hc => (h.canonical hc).congr rfl rfl, fun hs =>
    { h.limits hs with tcq := hq hs, seqKeys := (h.limits hs).seqKeys }⟩, h.busy, h.aborting⟩

/-- A sequence table changed within its capacity, its keys distinct. -/
theorem sequences {s t : State} (h : s.Steady t) {m : List SeqEntry}
    (hm : s.Limits → m.length ≤ Config.seqCapacity)
    (hk : s.Limits → m.Pairwise fun a b => ¬ (a.chan = b.chan ∧ a.src = b.src)) :
    s.Steady { t with seqTable := m } :=
  ⟨⟨h.pending, fun hc => (h.canonical hc).congr rfl rfl, fun hs =>
    { h.limits hs with seqLength := hm hs, seqKeys := hk hs }⟩, h.busy, h.aborting⟩

/-- A record joins a completion queue with room (R115). -/
theorem record {s t : State} (h : s.Steady t) (hroom : s.Limits → t.tcq.length < Config.tcqCapacity)
    (r : TxRecord) : s.Steady { t with tcq := t.tcq ++ [r] } :=
  h.records fun hs => Nat.le_trans (Nat.le_of_eq List.length_append) (hroom hs)

/-- Recording a sequence number keeps one entry for each channel and source, and at most 32 (R73). -/
theorem recordSeq {s t : State} (h : s.Steady t) (c : Chan) (src : Byte) (q : BitVec 3) :
    s.Steady (t.recordSeq c src q) := by
  have hsub : ∀ u, (if (t.seqTable.filter fun e => !e.isFor c src).length < Config.seqCapacity then
      t.seqTable.filter fun e => !e.isFor c src
      else (t.seqTable.filter fun e => !e.isFor c src).drop 1) = u →
      u.Sublist (t.seqTable.filter fun e => !e.isFor c src) := by
    rintro u rfl
    split
    · exact List.Sublist.refl _
    · exact List.drop_sublist 1 _
  refine h.sequences (fun hs => ?_) fun hs => ?_
  · have hlen : (t.seqTable.filter fun e => !e.isFor c src).length ≤ Config.seqCapacity :=
      Nat.le_trans (List.length_filter_le _ _) (h.limits hs).seqLength
    have hone : 0 < Config.seqCapacity := by decide
    rw [seqRecord]
    split <;> simp only [List.length_append, List.length_drop, List.length_cons, List.length_nil] <;>
      omega
  · refine List.pairwise_append.mpr ⟨?_, List.pairwise_singleton _ _, ?_⟩
    · exact ((h.limits hs).seqKeys.filter _).sublist (hsub _ rfl)
    · intro a ha b hb
      obtain rfl := List.mem_singleton.mp hb
      have hfor : (!a.isFor c src) = true := (List.mem_filter.mp ((hsub _ rfl).mem ha)).2
      rintro ⟨hchan, hsrc⟩
      simp [SeqEntry.isFor, hchan, hsrc] at hfor

/-! ### Operations of the allocator -/

theorem updEngine {s t : State} (h : s.Steady t) (c : Chan) (f : Engine → Engine) :
    s.Steady (t.updEngine c f) := h.chan c

theorem updSeq {s t : State} (h : s.Steady t) (c : Chan) (f : Sequencer → Sequencer) :
    s.Steady (t.updSeq c f) := h.chan c

theorem setLine {s t : State} (h : s.Steady t) (c : Chan) (l : LineTx) : s.Steady (t.setLine c l) :=
  h.chan c

theorem endFrame {s t : State} (h : s.Steady t) (c : Chan) (p : Parser) : s.Steady (t.endFrame c p) :=
  h.updEngine c _

theorem serveRequest {s t : State} (h : s.Steady t) (c : Chan) (n : Nat) :
    s.Steady (t.serveRequest c n) := by
  have hlast : s.Steady { t with lastRx := c } := h.same
  unfold State.serveRequest
  split
  · split
    · exact hlast.updEngine c _
    · exact (hlast.updEngine c _).grant _ _
  · exact hlast.updEngine c _

theorem serveOne {s t : State} (h : s.Steady t) : s.Steady t.serveOne := by
  unfold State.serveOne
  split
  · exact h
  · split
    · exact h
    · exact (h.serveRequest _ _).settle

theorem serveFor {s t : State} (h : s.Steady t) (c : Chan) (k : Nat) : s.Steady (t.serveFor c k) := by
  induction k generalizing t with
  | zero => exact h
  | succ k ih =>
    unfold State.serveFor
    split
    · exact ih h.serveOne
    · exact h

theorem serveAll {s t : State} (h : s.Steady t) : s.Steady t.serveAll :=
  h.serveOne.serveOne.serveOne.serveOne

/-! ### Operations of the transmit side -/

theorem dropHead (ch : Channel) : ch.Within ch.dropHead :=
  .of_fewer (by simp [Channel.dropHead]) rfl rfl

theorem finishEntry {s t : State} (h : s.Steady t)
    (hroom : s.Limits → t.tcq.length < Config.tcqCapacity) (c : Chan) (o : TxOutcome) : s.Steady (t.finishEntry c o) := by
  unfold State.finishEntry
  split
  · exact h
  · next e es _ =>
    have hrel := (h.record hroom (recordOf c e o (t.chan c).sequencer.attempts)).release e.head
    dsimp only
    split
    · exact (hrel.count c _).chan c (dropHead _)
    · exact hrel.chan c (dropHead _)

theorem claim {s t : State} (h : s.Steady t) (c : Chan) (o : TxOutcome) : s.Steady (t.claim c o) := by
  unfold State.claim
  split
  · next hroom => exact h.finishEntry (fun _ => hroom) c o
  · exact (h.updSeq c _).raise _

theorem completeAborted {s t : State} (h : s.Steady t) (c : Chan) :
    s.Steady (t.completeAborted c) := by
  unfold State.completeAborted
  split
  · exact h
  · dsimp only
    split
    · next hroom =>
      exact ((h.record (fun _ => hroom) _).release _).chan c (.of_fewer (by simp) rfl rfl)
    · exact ((h.raise _).release _).chan c (.of_fewer (by simp) rfl rfl)

theorem deliver {s t : State} (h : s.Steady t) (c : Chan) (nak : Bool) (src : Byte) (q : BitVec 3) :
    s.Steady (t.deliver c nak src q) := by
  unfold State.deliver
  dsimp only
  split
  · split
    · exact h.claim c .acked
    · split
      · exact (h.count c _).updSeq c _
      · exact (h.count c _).claim c .failBusy
    · split
      · exact h.claim c .acked
      · exact h.count c _
    · exact h.count c _
  · exact h.count c _

theorem attemptClean {s t : State} (h : s.Steady t) (c : Chan) : s.Steady (t.attemptClean c) := by
  unfold State.attemptClean
  split
  · exact h
  · split
    · exact h.updSeq c _
    · exact h.claim c .sent

theorem attemptCollision {s t : State} (h : s.Steady t) (c : Chan) :
    s.Steady (t.attemptCollision c) := by
  unfold State.attemptCollision
  split
  · exact h
  · dsimp only
    split
    · exact (h.count c _).updSeq c _
    · exact (h.count c _).claim c .failCollision

theorem ackTimeout {s t : State} (h : s.Steady t) (c : Chan) : s.Steady (t.ackTimeout c) := by
  unfold State.ackTimeout
  dsimp only
  split
  · exact (h.count c _).updSeq c _
  · exact (h.count c _).claim c .failNoAck

theorem flowCleanIn (low : Bool) (f : FlowFrame) (ch : Channel) :
    ch.Within (ch.flowCleanIn low f) := by
  unfold Channel.flowCleanIn
  split <;> exact .of_same rfl rfl rfl

theorem flowClean {s t : State} (h : s.Steady t) (c : Chan) : s.Steady (t.flowClean c) := by
  unfold State.flowClean
  split
  · exact h
  · exact (h.chan c (flowCleanIn _ _ _)).raise _

theorem flowCollision {s t : State} (h : s.Steady t) (c : Chan) : s.Steady (t.flowCollision c) := by
  unfold State.flowCollision
  split
  · exact h
  · split
    · exact h.chan c
    · exact h.chan c
    · split
      · exact h.chan c
      · exact (h.count c _).chan c

theorem reportClean {s t : State} (h : s.Steady t) (c : Chan) (k : TxKind) :
    s.Steady (t.reportClean c k) := by
  cases k with
  | response => exact h
  | flow => exact h.flowClean c
  | data => exact h.attemptClean c

theorem reportCollision {s t : State} (h : s.Steady t) (c : Chan) (k : TxKind) :
    s.Steady (t.reportCollision c k) := by
  cases k with
  | response => exact h.count c _
  | flow => exact h.flowCollision c
  | data => exact h.attemptCollision c

theorem readback {s t : State} (h : s.Steady t) (c : Chan) (f : Sending) (x : Character) :
    s.Steady (t.readback c f x) := by
  unfold State.readback
  split
  · exact h
  · dsimp only
    split
    · split
      · exact (h.setLine c _).reportClean c _
      · exact h.setLine c _
    · exact h.setLine c _

theorem servePlace {s t : State} (h : s.Steady t)
    (hroom : s.Limits → t.tcq.length < Config.tcqCapacity) : s.Steady t.servePlace := by
  unfold State.servePlace
  split
  · exact h
  · next c _ =>
    have hlast : s.Steady { t with lastTcq := c } := h.same
    split
    · exact h
    · exact hlast.finishEntry hroom _ _

/-! ### Operations of the receive side -/

theorem placeResponse {s t : State} (h : s.Steady t) (c : Chan) (nak : Bool) (e : Engine) :
    s.Steady (t.placeResponse c nak e) := by
  unfold State.placeResponse
  dsimp only
  split
  · exact (h.count c _).chan c
  · exact h.chan c

theorem respondIf {s t : State} (h : s.Steady t) (c : Chan) (b nak : Bool) (e : Engine) :
    s.Steady (t.respondIf c b nak e) := by
  unfold State.respondIf
  split
  · exact h.placeResponse c nak e
  · exact h

theorem dropResponse {s t : State} (h : s.Steady t) (c : Chan) : s.Steady (t.dropResponse c) := by
  unfold State.dropResponse
  split
  · exact (h.count c _).chan c
  · exact h

theorem dropFilling {s t : State} (h : s.Steady t) (c : Chan) : s.Steady (t.dropFilling c) := by
  unfold State.dropFilling
  split
  · exact h.release _
  · exact h
  · exact h

theorem rejectFrame {s t : State} (h : s.Steady t) (c : Chan) (k : Counter) (p : Parser) :
    s.Steady (t.rejectFrame c k p) := ((h.dropFilling c).count c k).endFrame c p

theorem takeDest {s t : State} (h : s.Steady t) (c : Chan) (d : Byte) : s.Steady (t.takeDest c d) := by
  unfold State.takeDest
  split
  · exact h.endFrame c _
  · split
    · exact h.rejectFrame c _ _
    · exact h.updEngine c _

theorem takeField {s t : State} (h : s.Steady t) (c : Chan) (ok : Bool) (f : Engine → Engine) :
    s.Steady (t.takeField c ok f) := by
  unfold State.takeField
  split
  · exact h.updEngine c _
  · exact h.rejectFrame c _ _

theorem takePayload {s t : State} (h : s.Steady t) (c : Chan) (b : Byte) :
    s.Steady (t.takePayload c b) := by
  unfold State.takePayload
  dsimp only
  split
  · exact (h.storeChain _ _ b).updEngine c _
  · exact h.updEngine c _
  · exact h.updEngine c _

theorem appendFrame {s t : State} (h : s.Steady t) (hroom : t.rfq.length < Config.rfqCapacity)
    (c : Chan) (p : Page) : s.Steady (t.appendFrame c p) := by
  have happ : s.Steady { t with rfq := t.rfq ++ [t.entryOf c p], arrival := t.arrival + 1 } :=
    h.frames fun _ => Nat.le_trans (Nat.le_of_eq List.length_append) hroom
  exact (happ.setOwner p .queuedRx).storeBytes p 0 _

theorem dataEnd {s t : State} (h : s.Steady t) (c : Chan) : s.Steady (t.dataEnd c) := by
  unfold State.dataEnd
  dsimp only
  split
  · exact (((h.recordSeq c _ _).dropFilling c).count c _).placeResponse c _ _
  · split
    · exact (h.count c _).respondIf c _ _ _
    · exact (h.count c _).respondIf c _ _ _
    · next p _ =>
      split
      · next hroom =>
        have happ := (h.appendFrame hroom c p).count c .rxFrames
        split
        · exact (happ.recordSeq c _ _).respondIf c _ _ _
        · exact happ.respondIf c _ _ _
      · exact (((h.release _).count c _).raise _).respondIf c _ _ _

theorem holdDelivered {s t : State} (h : s.Steady t) (c : Chan) (d : Byte) :
    s.Steady (t.holdDelivered c d) := by
  unfold State.holdDelivered
  split
  · exact h.chan c
  · exact (h.chan c).raise _

theorem decide {s t : State} (h : s.Steady t) (c : Chan) : s.Steady (t.decide c) := by
  unfold State.decide
  dsimp only
  split
  · exact h.dataEnd c
  · split
    · exact h.deliver c _ _ _
    · exact h
  · split
    · exact h.deliver c _ _ _
    · exact h
  · split
    · exact h.holdDelivered c _
    · exact h

theorem frameEnd {s t : State} (h : s.Steady t) (c : Chan) (lo : Byte) :
    s.Steady (t.frameEnd c lo) := by
  unfold State.frameEnd
  dsimp only
  split
  · exact ((h.updEngine c _).decide c).endFrame c _
  · exact (h.updEngine c _).rejectFrame c _ _

theorem takeNext {s t : State} (h : s.Steady t) (c : Chan) (b : Byte) : s.Steady (t.takeNext c b) := by
  unfold State.takeNext
  dsimp only
  split
  · exact h
  · exact h
  · exact h
  · exact h.takeField c _ _
  · exact h.takeField c _ _
  · exact h.takeField c _ _
  · split
    · exact h.takePayload c b
    · exact h.updEngine c _
  · split
    · exact h.takePayload c b
    · exact h.updEngine c _
  · exact h.frameEnd c b

theorem engineTake {s t : State} (h : s.Steady t) (c : Chan) (x : Character) :
    s.Steady (t.engineTake c x) := by
  unfold State.engineTake
  split
  · dsimp only
    split
    · split
      · exact h.rejectFrame c _ _
      · split
        · exact h.endFrame c _
        · exact h
    · split
      · split
        · exact (h.rejectFrame c _ _).takeDest c _
        · exact h.takeDest c _
      · exact h.takeNext c _
  · exact h

theorem completeCharacter {s t : State} (h : s.Steady t) (c : Chan) (x : Character) :
    s.Steady (t.completeCharacter c x) := by
  unfold State.completeCharacter
  dsimp only
  split
  · exact (h.chan c).engineTake c x
  · exact (h.chan c).readback c _ x

theorem receiveCharacter {s t : State} (h : s.Steady t) (c : Chan) (x : Character) :
    s.Steady (t.receiveCharacter c x) := by
  have hb : s.Steady (t.beforeCharacter c) := by
    unfold State.beforeCharacter
    split
    · exact h.serveFor c 4
    · exact h
  unfold State.receiveCharacter
  dsimp only
  split
  · exact (hb.completeCharacter c x).settle
  · exact hb

theorem startBit {s t : State} (h : s.Steady t) (c : Chan) : s.Steady (t.startBit c) :=
  (h.chan c).dropResponse c

theorem lineCharacter {s t : State} (h : s.Steady t) (c : Chan) (x : Character) :
    s.Steady (t.lineCharacter c x) := by
  have hstart : s.Steady (t.startBit c).settle := (h.startBit c).settle
  unfold State.lineCharacter
  dsimp only
  split
  · split
    · exact h
    · exact h.receiveCharacter c x
    · split
      · exact hstart.receiveCharacter c x
      · exact hstart
    · split
      · exact hstart.receiveCharacter c x
      · exact hstart
  · exact h

/-! ### Host accesses -/

theorem done {s t : State} (h : s.Steady t) (k : StatusCode) : s.Steady (t.done k) :=
  h.trans (State.Steady.raise (s := t) (t := { t with cmdStatus := k }) (refl t).same .cmdDone)

theorem loadRes {s t : State} (h : s.Steady t) (i : Nat) (l : List Byte) : s.Steady (t.loadRes i l) :=
  h.same (by simp [State.ordered])

theorem detachFrom {s t : State} (h : s.Steady t) (p : Page) : s.Steady (t.detachFrom p) :=
  h.same (by simp [State.ordered])

theorem attach {s t : State} (h : s.Steady t) (p : Page) (off : Byte) : s.Steady (t.attach p off) :=
  h.same

theorem portAdvance {s t : State} (h : s.Steady t) : s.Steady t.portAdvance :=
  h.same (by simp [State.ordered])

theorem setRes {s t : State} (h : s.Steady t) (i : Fin 8) (v : Byte) : s.Steady (t.setRes i v) :=
  h.same

theorem workArrived (ch : Channel) : ch.Within ch.workArrived := by
  unfold Channel.workArrived
  split <;> exact .of_same rfl rfl rfl

/-- A queue with room takes one more entry (R104). -/
theorem queued {ch : Channel} (hroom : ch.txq.length < Config.txqCapacity) (e : TxEntry) :
    ch.Within { ch with txq := ch.txq ++ [e], seqCounter := ch.seqCounter + 1 } :=
  ⟨fun hl => ⟨Nat.le_trans (Nat.le_of_eq List.length_append) hroom, hl.2⟩, .rfl⟩

theorem headWithdrawn (ch : Channel) : ch.Within ch.headWithdrawn := by
  unfold Channel.headWithdrawn
  split <;> exact .of_same rfl rfl rfl

end State.Steady

theorem Channel.Within.trans {a b d : Channel} (h : a.Within b) (g : b.Within d) : a.Within d :=
  ⟨fun hl => g.limits (h.limits hl), g.aborting.trans h.aborting⟩

namespace State.Steady

theorem allocBody {s t : State} (h : s.Steady t) : s.Steady t.allocBody := by
  unfold State.allocBody State.allocPages
  dsimp only
  split
  · exact h.done _
  · apply State.Steady.settle
    split
    · split
      · exact h.serveAll.done _
      · exact ((h.serveAll.grant .held _).setRes 0 _).done .ok
    · exact h.serveAll.done _

theorem releaseBody {s t : State} (h : s.Steady t) : s.Steady t.releaseBody := by
  unfold State.releaseBody
  dsimp only
  split
  · exact (((h.release _).detachFrom _).done .ok).settle
  · exact h.done _

theorem seekBody {s t : State} (h : s.Steady t) : s.Steady t.seekBody := by
  unfold State.seekBody
  dsimp only
  split
  · exact h.done _
  split
  · exact h.done _
  · exact (h.attach _ _).done _

theorem takeBody {s t : State} (h : s.Steady t) : s.Steady t.takeBody := by
  unfold State.takeBody
  split
  · exact h.done _
  · next e rest hq =>
    have hpop : s.Steady { t with rfq := rest } :=
      h.frames fun hs => by
        have hlen := (h.limits hs).rfq
        rw [hq, List.length_cons] at hlen
        omega
    exact (((hpop.setOwner e.head .held).loadRes 0 (receiveHeader e)).attach e.head 0).done .ok

theorem submitAccept {s t : State} (h : s.Steady t) {c : Chan}
    (hroom : (t.chan c).txq.length < Config.txqCapacity) : s.Steady (t.submitAccept c) := by
  have hown := (h.storeBytes (t.submitEntry c).head 0 (transmitHeader c (t.submitEntry c))).setOwner
    (t.submitEntry c).head (.queuedTx c)
  have hsame : ((State.setOwner (t.storeBytes (t.submitEntry c).head 0
      (transmitHeader c (t.submitEntry c))) (t.submitEntry c).head (.queuedTx c)).chan c) = t.chan c := by
    simp [State.chan_def]
  have hchan := hown.chan c (f := fun ch =>
    Channel.workArrived { ch with txq := ch.txq ++ [t.submitEntry c], seqCounter := ch.seqCounter + 1 })
    (by rw [hsame]; exact (queued hroom _).trans (workArrived _))
  exact ((hchan.setRes 0 _).detachFrom _).done .ok

theorem submitBody {s t : State} (h : s.Steady t) : s.Steady t.submitBody := by
  unfold State.submitBody
  dsimp only
  split
  · exact h.done _
  split
  · exact h.done _
  split
  · exact h.done _
  split
  · exact h.done _
  split
  · exact h.done _
  split
  · exact h.done _
  · next hroom => exact h.submitAccept (Nat.not_le.mp hroom)

theorem cancelBody {s t : State} (h : s.Steady t) : s.Steady t.cancelBody := by
  unfold State.cancelBody
  dsimp only
  split
  · exact h.done _
  · split
    · refine (((h.setOwner _ .held).chan _ ?_).setRes 0 _).done .ok
      refine Channel.Within.trans ?_ (headWithdrawn _)
      exact .of_fewer List.length_eraseP_le rfl rfl
    · split <;> exact h.done _

theorem flushBody {s t : State} (h : s.Steady t) : s.Steady t.flushBody := by
  unfold State.flushBody
  dsimp only
  split
  · exact h.done _
  · refine ((((h.chan _ ?_).releaseAll _).setRes 0 _).done .ok).settle
    refine Channel.Within.trans ?_ (headWithdrawn _)
    exact .of_fewer (List.length_filter_le _ _) rfl rfl

theorem popdoneBody {s t : State} (h : s.Steady t) : s.Steady t.popdoneBody := by
  unfold State.popdoneBody
  split
  · exact h.done _
  · next r rest hq =>
    have hroom : s.Limits → rest.length < Config.tcqCapacity := fun hs => by
      have hlen := (h.limits hs).tcq
      rw [hq, List.length_cons] at hlen
      omega
    have hpop : s.Steady { t with tcq := rest } := h.records fun hs => Nat.le_of_lt (hroom hs)
    exact (((hpop.loadRes 0 _).servePlace fun hs => by simpa using hroom hs).done .ok).settle

theorem enabled {ch : Channel} (hm : ch.mode = .off) : ch.Within ch.enabled := by
  unfold Channel.enabled
  refine Channel.Within.trans ?_ (workArrived _)
  exact ⟨id, by simp [hm]⟩

theorem enableBody {s t : State} (h : s.Steady t) : s.Steady t.enableBody := by
  unfold State.enableBody
  split
  · exact h.done _
  split
  · next hm => exact (h.chan _ (enabled hm)).done .ok
  · exact h.done _

theorem disableBody {s t : State} (h : s.Steady t) : s.Steady t.disableBody := by
  unfold State.disableBody
  split
  · exact h.done _
  split
  · next hm => exact ((h.chan _ ⟨id, by simp [hm]⟩).done .ok).settle
  · exact h.done _

theorem clearseqBody {s t : State} (h : s.Steady t) : s.Steady t.clearseqBody := by
  have hkept := h.sequences (m := t.seqTable.filter fun e => !(t.argByte 0).getLsbD e.chan.val)
    (fun hs => Nat.le_trans (List.length_filter_le _ _) (h.limits hs).seqLength)
    (fun hs => (h.limits hs).seqKeys.filter _)
  exact (hkept.setRes 0 _).done .ok

theorem stwriteBody {s t : State} (h : s.Steady t) : s.Steady t.stwriteBody := by
  have hstation : ∀ v, s.Steady { t with station := v } := fun v => h.same
  unfold State.stwriteBody
  split
  · exact h.done _
  split
  · exact h.done _
  · exact (hstation _).done .ok

theorem streadBody {s t : State} (h : s.Steady t) : s.Steady t.streadBody := by
  unfold State.streadBody
  split
  · exact h.done _
  · exact (h.loadRes 0 _).done .ok

theorem counterBody {s t : State} (h : s.Steady t) : s.Steady t.counterBody := by
  unfold State.counterBody
  split
  · dsimp only
    split
    · exact ((h.loadRes 0 _).chan _).done .ok
    · exact (h.loadRes 0 _).done .ok
  · exact h.done _

/-- A strobe whose body keeps order where the command unit is free. -/
theorem strobe {s t : State} (h : s.Steady t) {f : State → State} (hf : s.Steady (f t)) :
    s.Steady (t.strobe f) := State.strobe_keeps h (h.raise _) fun _ => hf

theorem access {s t : State} (h : s.Steady t) {f : State → State} (hf : s.Steady (f t)) :
    s.Steady (t.access f) := State.access_keeps h fun _ => hf

theorem dataReadOp {s t : State} (h : s.Steady t) : s.Steady t.dataReadOp := by
  have hout : ∀ b, s.Steady { t with dOut := b } := fun b => h.same
  unfold State.dataReadOp
  split
  · exact (hout _).portAdvance
  · exact (hout _).raise _

theorem dataWriteOp {s t : State} (h : s.Steady t) (v : Byte) : s.Steady (t.dataWriteOp v) := by
  unfold State.dataWriteOp
  split
  · exact (h.storeChain _ _ v).portAdvance
  · exact h.raise _

theorem hostRead {s t : State} (h : s.Steady t) (off : Offset) : s.Steady (t.hostRead off) := by
  unfold State.hostRead
  split
  · exact h.dataReadOp
  · unfold State.snapshot
    split <;> exact h.same

/-- Registers of the conditions, events and their enables changed, undefined bits 0 (R179, R188, R189). -/
theorem enables {s t : State} (h : s.Steady t) {ev en : Half} {cond : Byte}
    (hev : s.Limits → ev &&& 0xE000 = 0) (hen : s.Limits → en &&& 0xE000 = 0)
    (hcond : s.Limits → cond &&& 0xF0 = 0) :
    s.Steady { t with event := ev, eventEn := en, condEn := cond } :=
  ⟨⟨h.pending, fun hc => (h.canonical hc).congr rfl rfl, fun hs =>
    { h.limits hs with event := hev hs, eventEn := hen hs, condEn := hcond hs
                       seqKeys := (h.limits hs).seqKeys, chans := (h.limits hs).chans }⟩,
    h.busy, h.aborting⟩

theorem eventClear {s t : State} (h : s.Steady t) (high : Bool) (v : Byte) :
    s.Steady (t.eventClear high v) := by
  refine h.enables (fun hs => ?_) (fun hs => (h.limits hs).eventEn) (fun hs => (h.limits hs).condEn)
  have hev := (h.limits hs).event
  change (t.event &&& _) &&& 0xE000 = 0
  rw [BitVec.and_assoc, BitVec.and_comm _ 0xE000, ← BitVec.and_assoc, hev]
  exact BitVec.zero_and

/-- The undefined bits of EVENT_EN are in its high byte. -/
theorem eventEn_reserved (h : Half) : h &&& 0xE000 = 0 ↔ hiByte h &&& 0xE0 = 0 :=
  and_half_zero_eq_zero_iff h 0xE0

theorem eventEn {s t : State} (h : s.Steady t) {en : Half}
    (hen : s.Limits → hiByte en &&& 0xE0 = 0) : s.Steady { t with eventEn := en } :=
  h.enables (fun hs => (h.limits hs).event) (fun hs => (eventEn_reserved en).mpr (hen hs))
    (fun hs => (h.limits hs).condEn)

theorem window {s t : State} (h : s.Steady t) {f : Channel → Channel}
    (hf : ∀ ch : Channel, ch.Within (f ch)) : s.Steady (t.writeWindow f) := h.chan _ (hf _)

theorem registerWriteOp {s t : State} (h : s.Steady t) (off : Offset) (v : Byte) :
    s.Steady (t.registerWriteOp off v) := by
  have hmask : ∀ m k : Byte, m &&& k = 0 → v &&& m &&& k = 0 := fun m k hmk => by
    rw [BitVec.and_assoc, hmk]
    exact BitVec.and_zero
  unfold State.registerWriteOp
  split
  case h_1 =>
    exact h.enables (fun hs => (h.limits hs).event) (fun hs => (h.limits hs).eventEn)
      fun _ => hmask 0x0F 0xF0 (by decide)
  case h_2 =>
    refine h.eventEn fun hs => ?_
    rw [hiByte_half]
    exact (eventEn_reserved _).mp (h.limits hs).eventEn
  case h_3 =>
    refine h.eventEn fun _ => ?_
    rw [hiByte_half]
    exact hmask 0x1F 0xE0 (by decide)
  case h_18 =>
    exact h.window fun ch => ⟨fun hl => ⟨hl.1, hmask 0x3F 0xC0 (by decide)⟩, .rfl⟩
  case h_15 | h_16 | h_17 | h_19 | h_20 | h_21 | h_22 | h_23 | h_24 | h_25 =>
    exact h.window fun ch => .of_same rfl rfl rfl
  all_goals exact h.same

theorem hostWrite {s t : State} (h : s.Steady t) {off : Offset} (hw : off.writeHasOwnRow = false)
    (v : Byte) : s.Steady (t.hostWrite off v) := by
  rw [State.hostWrite, if_neg (by simp [hw])]
  exact h.registerWriteOp off v

/-- An event that acts only where its condition holds (log 2). -/
theorem guarded {p : Prop} [Decidable p] {s t : State} (h : s.Steady t) :
    s.Steady (if p then t else s) := by
  split
  · exact h
  · exact refl s

end State.Steady

/-! ### ABORT and the resets -/

theorem State.Orderly.of_chans {s t : State} (h : s.Orderly t) (q : Quad Channel)
    (hq : ∀ c, (t.chan c).Limits → (q.get c).Limits) : s.Orderly { t with chans := q } :=
  h.trans ⟨rfl, fun hc => hc.congr rfl rfl, fun hl =>
    { hl with chans := fun c => hq c (hl.chans c), seqKeys := hl.seqKeys }⟩

/-- A change of one channel that keeps its limits, its state perhaps not. -/
theorem State.Orderly.updChan {s t : State} (h : s.Orderly t) (c : Chan) {f : Channel → Channel}
    (hf : (t.chan c).Limits → (f (t.chan c)).Limits) : s.Orderly (t.updChan c f) := by
  refine h.of_chans _ fun d => ?_
  change (t.chan d).Limits → ((t.updChan c f).chan d).Limits
  rw [State.chan_updChan]
  split
  · next hd => subst hd; exact hf
  · exact id

/-- What follows the channel's entry into ABORTING leaves the channels' states. -/
theorem State.abortStart_steady (s : State) (c : Chan) :
    (s.updChan c Channel.aborted).Steady (s.abortStart c) := by
  have hend := ((State.Steady.refl (s.updChan c Channel.aborted)).dropFilling c).endFrame c .hunt
  unfold State.abortStart
  dsimp only
  split
  · exact hend.completeAborted c
  · exact hend

theorem State.abortStart_orderly (s : State) (c : Chan) : s.Orderly (s.abortStart c) :=
  State.Orderly.trans ((State.Steady.refl s).toOrderly.updChan c (f := Channel.aborted) id)
    (s.abortStart_steady c).toOrderly

/-- What ABORT_COMPLETE does before the channel enters OFF. -/
def State.abortEnd (s : State) (c : Chan) : State :=
  if (s.chan c).sequencer.state = .attempt then (s.setLine c .quiet).completeAborted c
  else s.setLine c .quiet

theorem State.abortFinish_eq (s : State) (c : Chan) :
    s.abortFinish c =
      ({ (s.abortEnd c).updChan c Channel.toOff with busy := none }.raise .chanOff).done .ok := rfl

theorem State.abortEnd_steady (s : State) (c : Chan) : s.Steady (s.abortEnd c) := by
  have hquiet := (State.Steady.refl s).setLine c .quiet
  unfold State.abortEnd
  split
  · exact hquiet.completeAborted c
  · exact hquiet

theorem State.Orderly.free {s t : State} (h : s.Orderly t) (b : Option Chan) :
    s.Orderly { t with busy := b } :=
  h.trans ⟨rfl, fun hc => hc.congr rfl rfl, fun hl => { hl with seqKeys := hl.seqKeys }⟩

theorem State.abortFinish_orderly (s : State) (c : Chan) : s.Orderly (s.abortFinish c) := by
  rw [State.abortFinish_eq]
  have hoff := ((s.abortEnd_steady c).toOrderly.updChan c (f := Channel.toOff) id).free none
  exact hoff.trans (((State.Steady.refl _).raise .chanOff).done .ok).toOrderly

/-- ABORT_COMPLETE leaves no channel ABORTING where its own was the only one. -/
theorem State.abortFinish_busyIffAborting {s : State} {c : Chan}
    (h : ∀ d, (s.chan d).mode = .aborting → d = c) : (s.abortFinish c).BusyIffAborting := by
  intro d
  change (((s.abortEnd c).updChan c Channel.toOff).chan d).mode = .aborting ↔ none = some d
  rw [State.chan_updChan]
  split
  · simp [Channel.toOff]
  · next hd => simpa [(s.abortEnd_steady c).aborting d] using mt (h d) hd

theorem State.abortBody_orderly (s : State) : s.Orderly s.abortBody := by
  unfold State.abortBody
  split
  · exact ((State.Steady.refl s).done _).toOrderly
  split
  · next c _ _ =>
    have hstart := s.abortStart_orderly c
    dsimp only
    split
    · exact (hstart.trans (State.abortFinish_orderly _ c)).trans (State.Steady.refl _).settle.toOrderly
    · have hbusy := hstart.free (some c)
      exact hbusy.trans
        (State.Steady.settle (t := { s.abortStart c with busy := some c, cmdStatus := .inProg })
          (State.Steady.refl _).same).toOrderly
  · exact ((State.Steady.refl s).done _).toOrderly

theorem State.abortBody_busyIffAborting {s : State} (hb : s.busy = none) (h : s.BusyIffAborting) :
    s.abortBody.BusyIffAborting := by
  have hnone : ∀ d, (s.chan d).mode ≠ .aborting := fun d hd => by simpa [hb] using (h d).mp hd
  unfold State.abortBody
  split
  · exact ((State.Steady.refl s).done _).busyIffAborting h
  split
  · next c _ _ =>
    have honly : ∀ d, ((s.abortStart c).chan d).mode = .aborting ↔ d = c := fun d => by
      rw [(s.abortStart_steady c).aborting d, State.chan_updChan]
      split
      · next hd => simp [hd, Channel.aborted]
      · next hd => simp [hd, hnone d]
    dsimp only
    split
    · exact (State.Steady.refl _).settle.busyIffAborting
        (State.abortFinish_busyIffAborting fun d hd => (honly d).mp hd)
    · refine (State.Steady.refl _).settle.busyIffAborting fun d => ?_
      exact (honly d).trans ⟨fun hd => by rw [hd], fun hd => (Option.some.inj hd).symm⟩
  · exact ((State.Steady.refl s).done _).busyIffAborting h

theorem Channel.reset_limits : Channel.reset.Limits := ⟨Nat.zero_le _, by decide⟩

theorem State.reset_limits : State.reset.Limits where
  rfq := Nat.zero_le _
  tcq := Nat.zero_le _
  seqLength := Nat.zero_le _
  seqKeys := .nil
  event := by decide
  eventEn := by decide
  condEn := by decide
  chans c := by
    rw [State.chan_def, State.reset, Quad.get_all]
    exact Channel.reset_limits

theorem State.softReset_orderly (s : State) : s.Orderly s.softReset := by
  refine ⟨rfl, fun hc => ⟨hc.1, Sparse.wf_nil⟩, fun hl => ?_⟩
  refine { State.reset_limits with eventEn := hl.eventEn, condEn := hl.condEn, chans := fun c => ?_ }
  rw [State.chan_def, State.softReset, Quad.get_map]
  exact ⟨Nat.zero_le _, (hl.chans c).2⟩

theorem State.pinReset_orderly (s : State) : s.Orderly s.pinReset := by
  refine ⟨rfl, fun hc => ⟨hc.1, Sparse.wf_nil⟩, fun _ => ?_⟩
  refine { State.reset_limits with chans := fun c => ?_ }
  rw [State.chan_def, State.pinReset, Quad.get_map]
  exact Channel.reset_limits

theorem State.softReset_busyIffAborting (s : State) : s.softReset.BusyIffAborting := fun c => by
  simp [State.softReset, State.chan_def, Channel.softReset, Channel.reset, State.reset]

theorem State.pinReset_busyIffAborting (s : State) : s.pinReset.BusyIffAborting := fun c => by
  simp [State.pinReset, State.chan_def, Channel.reset, State.reset]

/-! ### Commands -/

/-- Every event of a segment or of the part but ABORT_COMPLETE and PIN_RESET is steady. -/
theorem exec_event_steady {i : Instr} {s t : State} (ha : isAccess i = false)
    (habort : ∀ c, i ≠ .abortComplete c) (hpin : i ≠ .pinReset) (ht : exec i s = .next t) :
    s.Steady t := by
  have h := State.Steady.refl s
  cases i <;> cases ha <;> cases ht
  case pinReset => exact absurd rfl hpin
  case abortComplete c => exact absurd rfl (habort c)
  case characterReceived c x | readbackCharacter c x => exact h.lineCharacter c x
  case receiveRequestServed => exact h.serveOne.settle
  case gapExpiry c => exact (((h.chan c).serveFor c 4).rejectFrame c _ _).settle.guarded
  case skipGapExit c => exact ((h.chan c).endFrame c .hunt).settle.guarded
  case holdTimerExpiry c => exact h.chan c
  case backoffExpiry c | busyExpiry c | refreshExpiry c | lineSampledHigh c => exact (h.chan c).guarded
  case txAckTimeouts c => exact (h.ackTimeout c).settle.guarded
  case startBitDetected c => exact (h.startBit c).settle.guarded
  case lineFault c =>
    split
    · exact (h.chan c).raise _
    · exact h
  case responseStart c =>
    dsimp only
    split
    · exact h
    split
    · split
      · exact ((h.chan c).setLine c _).settle
      · exact (h.dropResponse c).settle
    · exact h
  case flowFrameStart c =>
    dsimp only
    split
    · exact h
    split
    · split
      · exact (h.chan c).setLine c _
      · exact (((h.chan c).count c _).chan c).settle
    · exact h
  case attemptStart c =>
    have hact : ∀ ch : Channel, (activateHead ch.txq).length = ch.txq.length := fun ch => by
      cases ch.txq <;> rfl
    dsimp only
    split
    · exact h
    split
    · next e _ _ _ =>
      have hown : s.Steady
          (if (s.chan c).sequencer.attempts = 0 then s.setOwner e.head (.activeTx c) else s) :=
        State.Steady.guarded (h.setOwner e.head _)
      exact (hown.chan c (.of_fewer (Nat.le_of_eq (hact _)) rfl rfl)).setLine c _
    · exact h
  case missingReadback c =>
    split
    · exact h
    split
    · exact h
    · exact h.setLine c _
  case lineTransmitterQuiet c =>
    split
    · exact h
    · exact (h.setLine c .quiet).settle.guarded
  case collisionReported c =>
    split
    · exact h
    · exact ((h.setLine c .quiet).reportCollision c _).settle.guarded
  case flowBackoffExpiry c =>
    split
    · exact h
    · exact (h.chan c).guarded

/-- Every access but ABORT and SRST is steady. -/
theorem exec_access_steady {i : Instr} {s t : State} (ha : isAccess i = true)
    (hw : i.wellFormed = true) (habort : i ≠ .abort) (hsrst : i ≠ .srst) (ht : exec i s = .next t) :
    s.Steady t := by
  have h := State.Steady.refl s
  cases i <;> cases ha <;> cases ht
  case abort => exact absurd rfl habort
  case srst => exact absurd rfl hsrst
  case alloc => exact h.strobe h.allocBody
  case release => exact h.strobe h.releaseBody
  case seek => exact h.strobe h.seekBody
  case take => exact h.strobe h.takeBody
  case submit => exact h.strobe h.submitBody
  case cancel => exact h.strobe h.cancelBody
  case flush => exact h.strobe h.flushBody
  case popdone => exact h.strobe h.popdoneBody
  case enable => exact h.strobe h.enableBody
  case disable => exact h.strobe h.disableBody
  case clearseq => exact h.strobe h.clearseqBody
  case stwrite => exact h.strobe h.stwriteBody
  case stread => exact h.strobe h.streadBody
  case counter => exact h.strobe h.counterBody
  case dataRead => exact h.access h.dataReadOp
  case dataWrite v => exact h.access (h.dataWriteOp v)
  case eventWrite high v => exact h.access (h.eventClear high v)
  case lowByteReadSnapshot off => exact h.access (h.hostRead off)
  case registerWrite off v =>
    exact h.access (h.hostWrite (by simpa [Instr.wellFormed] using hw) v)

/-- Every command keeps order: the queue, the canonical form and the limits. -/
theorem exec_orderly {i : Instr} {s t : State} (hw : i.wellFormed = true) (ht : exec i s = .next t) :
    s.Orderly t := by
  have h := State.Steady.refl s
  cases ha : isAccess i with
  | true =>
    by_cases habort : i = .abort
    · subst habort; cases ht
      exact State.strobe_keeps h.toOrderly (h.raise _).toOrderly fun _ => s.abortBody_orderly
    by_cases hsrst : i = .srst
    · subst hsrst; cases ht
      exact State.strobe_keeps h.toOrderly (h.raise _).toOrderly fun _ =>
        s.softReset_orderly.trans ((State.Steady.refl _).done .ok).toOrderly
    · exact (exec_access_steady ha hw habort hsrst ht).toOrderly
  | false =>
    by_cases hpin : i = .pinReset
    · subst hpin; cases ht
      exact s.pinReset_orderly
    by_cases habort : ∃ c, i = .abortComplete c
    · obtain ⟨c, rfl⟩ := habort
      cases ht
      split
      · exact (s.abortFinish_orderly c).trans (State.Steady.refl _).settle.toOrderly
      · exact h.toOrderly
    · exact (exec_event_steady ha (not_exists.mp habort) hpin ht).toOrderly

theorem exec_busyIffAborting {i : Instr} {s t : State} (hw : i.wellFormed = true)
    (hs : s.BusyIffAborting) (ht : exec i s = .next t) : t.BusyIffAborting := by
  have hrefused := ((State.Steady.refl s).raise .cmdReject).busyIffAborting hs
  cases ha : isAccess i with
  | true =>
    by_cases habort : i = .abort
    · subst habort; cases ht
      exact State.strobe_keeps hs hrefused fun hb => State.abortBody_busyIffAborting hb hs
    by_cases hsrst : i = .srst
    · subst hsrst; cases ht
      exact State.strobe_keeps hs hrefused fun _ =>
        ((State.Steady.refl _).done .ok).busyIffAborting s.softReset_busyIffAborting
    · exact (exec_access_steady ha hw habort hsrst ht).busyIffAborting hs
  | false =>
    by_cases hpin : i = .pinReset
    · subst hpin; cases ht
      exact s.pinReset_busyIffAborting
    by_cases habort : ∃ c, i = .abortComplete c
    · obtain ⟨c, rfl⟩ := habort
      cases ht
      split
      · next hm =>
        refine (State.Steady.refl _).settle.busyIffAborting
          (State.abortFinish_busyIffAborting fun d hd => ?_)
        exact Option.some.inj (((hs d).mp hd).symm.trans ((hs c).mp hm))
      · exact hs
    · exact (exec_event_steady ha (not_exists.mp habort) hpin ht).busyIffAborting hs

/-! ### The clock -/

/-- A REFCLK period changes neither the state of a channel, nor its queue, nor its registers. -/
theorem Channel.clock_within (ch : Channel) : ch.Within ch.clock := by
  unfold Channel.clock
  split
  · exact .of_same rfl rfl rfl
  split
  · exact .of_same rfl rfl rfl
  · rw [Channel.sampleTick_eq]
    exact .of_same rfl rfl rfl

theorem State.advance_steady (s : State) : s.Steady s.advance :=
  ((State.Steady.refl s).chans s.advance.chans fun c => by
    rw [← State.chan_def, State.chan_advance]
    refine Channel.Within.trans ?_ (Channel.clock_within { s.chan c with rxd := s.rxdNext c })
    exact .of_same rfl rfl rfl).same

/-- Settles O3: each command answers, and keeps the queue with the rest of what is in order. -/
theorem everyCommandAnswersAndKeepsTheQueue : Obligations.EveryCommandAnswersAndKeepsTheQueue := by
  intro i s
  obtain ⟨j, hw, heq⟩ := exists_wellFormed i s
  obtain ⟨t, ht⟩ := exists_exec i s
  exact ⟨t, ht, (exec_orderly hw (heq ▸ ht)).pending⟩

/-- Settles O55, from the commands and the clock, which stores nothing. -/
theorem stepKeepsTablesCanonical : Obligations.StepKeepsTablesCanonical :=
  fun _ _ hs ht => step_keeps (P := State.Canonical) (fun _ _ h => h.congr rfl rfl)
    (fun _ _ _ hw h ht => (exec_orderly hw ht).canonical h) (fun _ h => h.congr rfl rfl) hs ht

/-- Settles O56: the limits, and which channel is ABORTING, are kept by the commands and the clock. -/
theorem stepKeepsCapacitiesAndReservedBits : Obligations.StepKeepsCapacitiesAndReservedBits := by
  intro s t hbound hkeys hres hbusy ht
  have hkept : t.Limits ∧ t.BusyIffAborting :=
    step_keeps (P := fun s => s.Limits ∧ s.BusyIffAborting)
      (fun _ _ h => ⟨{ h.1 with seqKeys := h.1.seqKeys }, h.2⟩)
      (fun _ _ _ hw h ht => ⟨(exec_orderly hw ht).limits h.1, exec_busyIffAborting hw h.2 ht⟩)
      (fun s h => ⟨s.advance_steady.limits h.1, s.advance_steady.busyIffAborting h.2⟩)
      ⟨(s.limits_iff).mpr ⟨hbound, hkeys, hres⟩, hbusy⟩ ht
  obtain ⟨hb, hk, hr⟩ := t.limits_iff.mp hkept.1
  exact ⟨hb, hk, hr, hkept.2⟩

end Sys2Proof.Machine

/-!
PROOFS. The allocator's arbiter (R28, R30): which receive request is served next, that serving it leaves
the others waiting, and that four of them leave none.
-/
namespace Sys2Proof.Machine

/-! ### The request served next -/

/-- Where a channel passes a test, one is the first of the rotation that does. -/
theorem exists_first_after (l : Chan) (p : Chan → Prop) (h : ∃ c, p c) :
    ∃ c, p c ∧ ∀ d, d - (l + 1) < c - (l + 1) → ¬ p d := by
  obtain ⟨c, hc⟩ := h
  induction hn : (c - (l + 1)).val using Nat.strongRecOn generalizing c with
  | ind n ih =>
    by_cases hbefore : ∃ d, d - (l + 1) < c - (l + 1) ∧ p d
    · obtain ⟨d, hlt, hd⟩ := hbefore
      exact ih _ (hn ▸ hlt) d hd rfl
    · exact ⟨c, hc, fun d hlt hd => hbefore ⟨d, hlt, hd⟩⟩

theorem State.exists_nextRequest {s : State} (h : ¬ s.NoRequests) : ∃ c n, s.NextRequest c n := by
  simp only [State.NoRequests, Classical.not_forall] at h
  obtain ⟨c, hc, hfirst⟩ := exists_first_after s.lastRx (fun c => (s.chan c).engine.request ≠ none) h
  obtain ⟨n, hn⟩ := Option.ne_none_iff_exists'.mp hc
  exact ⟨c, n, hn, fun d hd => Classical.not_not.mp (hfirst d hd)⟩

/-! ### What serving a request does -/

/-- The part with a receive request of channel c answered with a room mark, c the last served (R30,
R56). -/
def State.answered (s : State) (c : Chan) (r : Room) : State :=
  State.updChan { s with lastRx := c } c fun ch =>
    { ch with engine := { ch.engine with request := none, room := r } }

theorem State.answered_chan (s : State) (c d : Chan) (r : Room) :
    (s.answered c r).chan d =
      if d = c then { s.chan c with engine := { (s.chan c).engine with request := none, room := r } }
      else s.chan d := State.chan_updChan _ c d _

theorem State.serveRequest_of_room {s : State} {c : Chan} {n : Nat} {h : Page}
    (hroom : n + min 64 s.reserve.toNat ≤ s.freeCount) (hh : s.freeList.head? = some h) :
    s.serveRequest c n = (s.answered c (.storing h)).grant (.filling c) n := by
  rw [State.serveRequest, if_pos (show n + s.hostReserve ≤ s.freeCount from hroom)]
  split
  · next hnil => rw [hnil] at hh; cases hh
  · next hcons => rw [hcons] at hh; cases hh; rfl

theorem State.serveRequest_of_no_room {s : State} {c : Chan} {n : Nat}
    (hroom : s.freeCount < n + min 64 s.reserve.toNat) : s.serveRequest c n = s.answered c .noRoom :=
  if_neg (Nat.not_le.mpr hroom)

/-- A request is refused, or granted from the free list; with no page free it is refused. -/
theorem State.serveRequest_cases (s : State) (c : Chan) (n : Nat) :
    s.serveRequest c n = s.answered c .noRoom ∨
      ∃ h, s.freeList.head? = some h ∧ n + s.hostReserve ≤ s.freeCount ∧
        s.serveRequest c n = (s.answered c (.storing h)).grant (.filling c) n := by
  unfold State.serveRequest
  split
  · next hroom =>
    split
    · exact .inl rfl
    · next h rest hfree => exact .inr ⟨h, by rw [hfree]; rfl, hroom, rfl⟩
  · exact .inl rfl

@[simp] theorem State.settle_chan_engine (s : State) (c : Chan) :
    (s.settle.chan c).engine = (s.chan c).engine := by
  rw [State.settle_chan, Channel.settle]
  split <;> rfl

theorem State.serveRequest_request (s : State) (c d : Chan) (n : Nat) :
    ((s.serveRequest c n).chan d).engine.request =
      if d = c then none else (s.chan d).engine.request := by
  obtain h | ⟨p, -, -, h⟩ := s.serveRequest_cases c n <;>
    simp only [h, State.grant_chan_frame, State.answered_chan] <;> split <;> rfl

/-- Serving the next request answers it and no other. -/
theorem State.serveOne_request {s : State} {c : Chan} {n : Nat} (h : s.NextRequest c n) (d : Chan) :
    (s.serveOne.chan d).engine.request = if d = c then none else (s.chan d).engine.request := by
  rw [State.serveOne_of_next h, State.settle_chan_engine, State.serveRequest_request]

/-! ### How many wait -/

/-- The channels whose receive requests wait. -/
def State.requests (s : State) : List Chan := [0, 1, 2, 3].filter s.hasRequest

theorem State.mem_requests (s : State) (c : Chan) :
    c ∈ s.requests ↔ (s.chan c).engine.request ≠ none := by
  have hc : c ∈ ([0, 1, 2, 3] : List Chan) := by
    revert c
    decide
  simp [State.requests, State.hasRequest, Option.isSome_iff_ne_none, hc]

theorem State.requests_nodup (s : State) : s.requests.Nodup :=
  List.Pairwise.filter _ (by decide : ([0, 1, 2, 3] : List Chan).Nodup)

theorem State.requests_length_le (s : State) : s.requests.length ≤ 4 := List.length_filter_le _ _

theorem State.noRequests_of_length {s : State} (h : s.requests.length = 0) : s.NoRequests := fun c =>
  Classical.byContradiction fun hc => by
    have hmem := (s.mem_requests c).mpr hc
    rw [List.eq_nil_of_length_eq_zero h] at hmem
    exact absurd hmem List.not_mem_nil

theorem State.length_of_noRequests {s : State} (h : s.NoRequests) : s.requests.length = 0 := by
  rw [List.length_eq_zero_iff, List.eq_nil_iff_forall_not_mem]
  exact fun c hc => (s.mem_requests c).mp hc (h c)

/-- Serving the next request takes it from those that wait. -/
theorem State.serveOne_requests {s : State} {c : Chan} {n : Nat} (h : s.NextRequest c n) :
    s.serveOne.requests = s.requests.erase c := by
  rw [s.requests_nodup.erase_eq_filter, State.requests, State.requests, List.filter_filter]
  refine List.filter_congr fun d _ => ?_
  rw [State.hasRequest, State.serveOne_request h, State.hasRequest]
  by_cases hd : d = c <;> simp [hd]

theorem State.serveOne_length (s : State) : s.serveOne.requests.length = s.requests.length - 1 := by
  by_cases h : s.NoRequests
  · rw [State.serveOne_of_none h, State.length_of_noRequests h]
  · obtain ⟨c, n, hn⟩ := State.exists_nextRequest h
    rw [State.serveOne_requests hn, List.length_erase_of_mem ((s.mem_requests c).mpr (by simp [hn.1]))]

theorem State.serveAll_noRequests (s : State) : s.serveAll.NoRequests := by
  refine State.noRequests_of_length ?_
  have h := s.requests_length_le
  simp only [State.serveAll, State.serveOne_length]
  omega

/-- As many services as requests wait are enough for any channel. -/
theorem State.serveFor_request {s : State} {k : Nat} (h : s.requests.length ≤ k) (c : Chan) :
    ((s.serveFor c k).chan c).engine.request = none := by
  induction k generalizing s with
  | zero => exact State.noRequests_of_length (Nat.le_zero.mp h) c
  | succ k ih =>
    unfold State.serveFor
    split
    · exact ih (by rw [State.serveOne_length]; omega)
    · next hc => simpa [State.hasRequest] using hc

/-- Settles O17: the next request's two answers, and that the requests run out. -/
theorem receiveRequestIsServedInRotation : Obligations.ReceiveRequestIsServedInRotation := by
  have hexec : ∀ (s v : State), s.serveOne = v.settle →
      exec .receiveRequestServed s = .next v.settle ∧ s.serveOne = v.settle := fun s v h =>
    ⟨congrArg Host.Outcome.next (by rw [h, State.settle_settle]), h⟩
  intro s
  refine ⟨?_, ?_, ?_, rfl, s.serveAll_noRequests, fun c k => ⟨?_, ?_, ?_⟩⟩
  · rintro c n h _ hnext hroom hh rfl
    exact hexec s _ (by rw [State.serveOne_of_next hnext, State.serveRequest_of_room hroom hh]; rfl)
  · rintro c n _ hnext hroom rfl
    exact hexec s _ (by rw [State.serveOne_of_next hnext, State.serveRequest_of_no_room hroom]; rfl)
  · intro hnone
    have hs := State.serveOne_of_none hnone
    exact ⟨congrArg (fun u : State => Host.Outcome.next u.settle) hs, hs⟩
  · intro hc
    exact State.serveFor_of_none (by simp [State.hasRequest, hc]) k
  · intro hc
    exact if_pos (by simpa [State.hasRequest, Option.isSome_iff_ne_none] using hc)
  · exact State.serveFor_request s.requests_length_le c

end Sys2Proof.Machine

/-!
PROOFS. The register window (chapter 10): bus accesses and their commands, what a read drives and a
write stores, EVENT and the interrupt line.
-/
namespace Sys2Proof.Machine

/-! ### EVENT and INT# -/

/-- Two words have a common bit exactly where their conjunction is not 0. -/
theorem and_ne_zero_iff {w : Nat} (a b : BitVec w) :
    a &&& b ≠ 0 ↔ ∃ i, a.getLsbD i = true ∧ b.getLsbD i = true := by
  constructor
  · refine fun hne => Classical.byContradiction fun hno => ?_
    refine hne (BitVec.eq_of_getLsbD_eq fun i _ => ?_)
    have hi := not_exists.mp hno i
    simpa using hi
  · rintro ⟨i, ha, hb⟩ hzero
    have hbit := congrArg (fun v => v.getLsbD i) hzero
    simp [ha, hb] at hbit

/-- The bits of four conditions packed with four zero bits above them. -/
theorem getLsbD_packed_conditions (a b c d : Bool) :
    ∀ i < 8, (0#4 ++ (BitVec.ofBool a ++ (BitVec.ofBool b ++ (BitVec.ofBool c ++ BitVec.ofBool d))) :
      BitVec 8).getLsbD i =
      if i = 0 then d else if i = 1 then c else if i = 2 then b else if i = 3 then a else false := by
  revert a b c d
  decide

/-- COND bit by bit (section 11.5). -/
theorem State.cond_getLsbD (s : State) (i : Nat) :
    s.cond.getLsbD i =
      if i = 0 then !s.rfq.isEmpty else if i = 1 then !s.tcq.isEmpty
      else if i = 2 then s.busy.isSome else if i = 3 then s.pool == .low else false := by
  by_cases hi : i < 8
  · exact getLsbD_packed_conditions _ _ _ _ i hi
  · rw [BitVec.getLsbD_of_ge _ _ (by omega)]
    simp only [show i ≠ 0 by omega, show i ≠ 1 by omega, show i ≠ 2 by omega, show i ≠ 3 by omega,
      if_false]

/-- An enabled condition is true (R189). -/
theorem State.cond_and_condEn_iff (s : State) :
    s.cond &&& s.condEn ≠ 0 ↔
      (s.rfq ≠ [] ∧ s.condEn.getLsbD 0 = true) ∨ (s.tcq ≠ [] ∧ s.condEn.getLsbD 1 = true) ∨
      (s.busy.isSome = true ∧ s.condEn.getLsbD 2 = true) ∨
      (s.pool = .low ∧ s.condEn.getLsbD 3 = true) := by
  rw [and_ne_zero_iff]
  simp only [State.cond_getLsbD]
  constructor
  · rintro ⟨i, hcond, hen⟩
    by_cases h0 : i = 0
    · subst h0; exact .inl ⟨by simpa using hcond, hen⟩
    by_cases h1 : i = 1
    · subst h1; exact .inr (.inl ⟨by simpa using hcond, hen⟩)
    by_cases h2 : i = 2
    · subst h2; exact .inr (.inr (.inl ⟨hcond, hen⟩))
    by_cases h3 : i = 3
    · subst h3; exact .inr (.inr (.inr ⟨by simpa using hcond, hen⟩))
    · rw [if_neg h0, if_neg h1, if_neg h2, if_neg h3] at hcond
      exact absurd hcond nofun
  · rintro (⟨h, hen⟩ | ⟨h, hen⟩ | ⟨h, hen⟩ | ⟨h, hen⟩)
    · exact ⟨0, by simpa using h, hen⟩
    · exact ⟨1, by simpa using h, hen⟩
    · exact ⟨2, by simpa using h, hen⟩
    · exact ⟨3, by simpa using h, hen⟩

theorem State.intAsserted_iff {s : State} (hr : s.resetLow = false) :
    s.intAsserted = true ↔ s.event &&& s.eventEn ≠ 0 ∨ s.cond &&& s.condEn ≠ 0 := by
  simp [State.intAsserted, hr]

/-- Settles O10: EVENT's word and COND's bits, taken apart by the two disjuncts of R190. -/
theorem eventFlagsDriveTheInterruptLine : Obligations.EventFlagsDriveTheInterruptLine := by
  refine ⟨fun s v hr => ?_, fun s hr => ?_⟩
  · simp only [exec, execEventWrite, State.access_of_high hr]
    exact ⟨rfl, rfl⟩
  · rw [State.intAsserted_iff hr, State.cond_and_condEn_iff, and_ne_zero_iff]

/-! ### Writes -/

theorem exec_registerWrite_of_high {s : State} {off : Offset} (hr : s.resetLow = false)
    (hrow : off.writeHasOwnRow = false) (v : Byte) :
    exec (.registerWrite off v) s = .next (s.registerWriteOp off v) := by
  rw [exec_registerWrite, State.access_of_high hr]
  simp [State.hostWrite, hrow]

/-- The low byte of a 16-bit value replaced. -/
theorem half_hiByte_eq (h : Half) (v : Byte) :
    half (hiByte h) v = (h &&& 0xFF00) ||| ((0x00 : Byte) ++ v) := by
  calc half (hiByte h) v
      = (half (hiByte h) (loByte h) &&& half (BitVec.allOnes 8) 0x00) ||| half 0x00 v := by
        simp only [half_and_half, half_or_half, BitVec.and_allOnes, BitVec.ofNat_eq_ofNat,
          BitVec.and_zero, BitVec.zero_or, BitVec.or_zero]
    _ = _ := by rw [half_hiByte_loByte]; rfl

/-- The high byte of a 16-bit value replaced. -/
theorem half_loByte_eq (h : Half) (v : Byte) :
    half v (loByte h) = (h &&& 0x00FF) ||| (v ++ (0x00 : Byte)) := by
  calc half v (loByte h)
      = (half (hiByte h) (loByte h) &&& half 0x00 (BitVec.allOnes 8)) ||| half v 0x00 := by
        simp only [half_and_half, half_or_half, BitVec.and_allOnes, BitVec.ofNat_eq_ofNat,
          BitVec.and_zero, BitVec.zero_or, BitVec.or_zero]
    _ = _ := by rw [half_hiByte_loByte]; rfl

theorem lowChan_of_eq {d : Chan} {v : Byte} (h : d.val = v.toNat % 4) : lowChan v = d := by
  have hand : (v &&& 3).toNat = v.toNat % 4 := Nat.and_two_pow_sub_one_eq_mod v.toNat 2
  exact Fin.ext (by simp only [lowChan, hand, Nat.mod_mod, h])

/-- An offset by its number. -/
theorem offset_eq_of_toNat {off : Offset} {n : Nat} (h : off.toNat = n) : off = BitVec.ofNat 6 n := by
  rw [← h, BitVec.ofNat_toNat, BitVec.setWidth_eq]

theorem State.registerWriteOp_arg (s : State) {off : Offset} {i : Fin 6}
    (h : off.toNat = 0x09 + i.val) (v : Byte) :
    s.registerWriteOp off v = { s with arg := s.arg.set i v } := by
  unfold State.registerWriteOp
  rw [h]
  match i with
  | 0 | 1 | 2 | 3 | 4 | 5 => rfl

/-- A read-only location ignores a write (R179). -/
theorem State.registerWriteOp_readOnly (s : State) {off : Offset}
    (h : off.toNat ≤ 0x03 ∨ (0x0F ≤ off.toNat ∧ off.toNat ≤ 0x16) ∨
      (0x18 ≤ off.toNat ∧ off.toNat ≤ 0x1E) ∨ off.toNat = 0x2F) (v : Byte) :
    s.registerWriteOp off v = s := by
  unfold State.registerWriteOp
  split
  case h_26 => rfl
  all_goals omega

theorem writeHasOwnRow_of_ne {off : Offset} (h5 : off.toNat ≠ 0x05) (h6 : off.toNat ≠ 0x06)
    (h17 : off.toNat ≠ 0x17) (hlt : off.toNat < 0x30) : off.writeHasOwnRow = false := by
  have hne : ∀ k : Offset, off.toNat ≠ k.toNat → (off == k) = false := fun k hk => by
    simpa using fun heq => hk (congrArg BitVec.toNat heq)
  simp only [Offset.writeHasOwnRow, hne 0x05 h5, hne 0x06 h6, hne 0x17 h17, Bool.false_or,
    decide_eq_false_iff_not]
  omega

/-- Settles O9: each offset's row of the write, with the bytes of the 16-bit registers put in place. -/
theorem registerWriteStoresTheByte : Obligations.RegisterWriteStoresTheByte := by
  intro s v hr
  have hwrite : ∀ off : Offset, off.writeHasOwnRow = false →
      exec (.registerWrite off v) s = .next (s.registerWriteOp off v) :=
    fun off hrow => exec_registerWrite_of_high hr hrow v
  simp only [← half_hiByte_eq, ← half_loByte_eq]
  refine ⟨hwrite _ rfl, hwrite _ rfl, hwrite _ rfl, fun i off hi => ?_, hwrite _ rfl, hwrite _ rfl,
    hwrite _ rfl, hwrite _ rfl, fun d hd => ?_, hwrite _ rfl, hwrite _ rfl, hwrite _ rfl,
    hwrite _ rfl, hwrite _ rfl, hwrite _ rfl, hwrite _ rfl, hwrite _ rfl, hwrite _ rfl,
    hwrite _ rfl, hwrite _ rfl, fun off hro => ?_⟩
  · rw [hwrite off (writeHasOwnRow_of_ne (by omega) (by omega) (by omega) (by omega)),
      s.registerWriteOp_arg hi]
  · rw [hwrite _ rfl, ← lowChan_of_eq hd]
    rfl
  · have hro' : off.toNat ≤ 0x03 ∨ (0x0F ≤ off.toNat ∧ off.toNat ≤ 0x16) ∨
        (0x18 ≤ off.toNat ∧ off.toNat ≤ 0x1E) ∨ off.toNat = 0x2F := by
      rcases hro with h | h | h | rfl
      · exact .inl h
      · exact .inr (.inl h)
      · exact .inr (.inr (.inl h))
      · exact .inr (.inr (.inr rfl))
    rw [hwrite off (writeHasOwnRow_of_ne (by omega) (by omega) (by omega) (by omega)),
      s.registerWriteOp_readOnly hro']

end Sys2Proof.Machine

/-!
PROOFS. Host reads (R178 to R180, section 11.4) and both resets (R191 to R193).
-/
namespace Sys2Proof.Machine

/-! ### Bus accesses -/

theorem strobeOf_eq {a : Offset} (h : 0x30 ≤ a.toNat) : strobeOf a = strobes[a.toNat - 0x30]? := by
  revert a
  decide

theorem writeCommand_of_strobe {a : Offset} (h : 0x30 ≤ a.toNat) (d : Byte) :
    some (writeCommand a d) = strobes[a.toNat - 0x30]? := by
  obtain ⟨i, -, hs⟩ := exists_strobeOf h
  rw [← strobeOf_eq h, hs]
  simp [writeCommand, hs]

theorem writeCommand_of_register {a : Offset} (h : a.toNat < 0x30) (h5 : a ≠ 0x05) (h6 : a ≠ 0x06)
    (h17 : a ≠ 0x17) (d : Byte) : writeCommand a d = .registerWrite a d := by
  simp only [writeCommand, strobeOf_none_of_lt h, beq_iff_eq, h5, h6, h17, if_false]

theorem readCommand_of_ne {a : Offset} (h : a ≠ 0x17) : readCommand a = .lowByteReadSnapshot a := by
  simp only [readCommand, beq_iff_eq, h, if_false]

theorem decodeBus_idle {resetN csN rdN wrN : Bool} (h : resetN = false ∨ csN = true ∨ rdN = wrN)
    (a : Offset) (d : Byte) : decodeBus resetN csN rdN wrN a d = none := by
  revert resetN csN rdN wrN
  intro resetN csN rdN wrN
  cases resetN with
  | false => intro _; rfl
  | true =>
    cases csN with
    | true => intro _; rfl
    | false =>
      intro h
      obtain rfl : rdN = wrN := by simpa using h
      cases rdN <;> rfl

/-! ### What a read drives and changes -/

/-- The snapshots a read loads (R180). -/
theorem State.snapshot_eq (s : State) (off : Offset) :
    s.snapshot off =
      { s with
        snapEvent := if off = 0x05 then hiByte s.event else s.snapEvent
        snapEventEn := if off = 0x07 then hiByte s.eventEn else s.snapEventEn
        snapFree := if off = 0x1B then hiByte s.freeWord else s.snapFree
        snapDiv := if off = 0x25 then hiByte s.window.div else s.snapDiv
        snapSpacing := if off = 0x28 then hiByte s.window.spacing else s.snapSpacing } := by
  by_cases h5 : off = 0x05
  · subst h5; rfl
  by_cases h7 : off = 0x07
  · subst h7; rfl
  by_cases h1B : off = 0x1B
  · subst h1B; rfl
  by_cases h25 : off = 0x25
  · subst h25; rfl
  by_cases h28 : off = 0x28
  · subst h28; rfl
  simp only [h5, h7, h1B, h25, h28, if_false]
  unfold State.snapshot
  split
  · next h => exact absurd (offset_eq_of_toNat h) h5
  · next h => exact absurd (offset_eq_of_toNat h) h7
  · next h => exact absurd (offset_eq_of_toNat h) h1B
  · next h => exact absurd (offset_eq_of_toNat h) h25
  · next h => exact absurd (offset_eq_of_toNat h) h28
  · rfl

theorem exec_lowByteReadSnapshot_of_high {s : State} {off : Offset} (hr : s.resetLow = false)
    (hne : off ≠ 0x17) :
    exec (.lowByteReadSnapshot off) s = .next (State.snapshot { s with dOut := s.readByte off } off) := by
  simp only [exec, execLowByteReadSnapshot, State.access_of_high hr, State.hostRead,
    Offset.readHasOwnRow, beq_iff_eq, hne, if_false]

theorem State.readByte_arg (s : State) {off : Offset} {i : Fin 6} (h : off.toNat = 0x09 + i.val) :
    s.readByte off = s.arg[i] := by
  unfold State.readByte
  rw [h]
  match i with
  | 0 | 1 | 2 | 3 | 4 | 5 => rfl

theorem State.readByte_res (s : State) {off : Offset} {i : Fin 8} (h : off.toNat = 0x0F + i.val) :
    s.readByte off = s.res[i] := by
  unfold State.readByte
  rw [h]
  match i with
  | 0 | 1 | 2 | 3 | 4 | 5 | 6 | 7 => rfl

/-- A strobe reads 00h (R179). -/
theorem State.readByte_strobe (s : State) {off : Offset} (h : 0x30 ≤ off.toNat) :
    s.readByte off = 0x00 := by
  unfold State.readByte
  split
  case h_48 => rfl
  all_goals omega

theorem byteOf_toNat {n : Nat} (h : n < 256) : (byteOf n).toNat = n := by
  simp [byteOf, Nat.mod_eq_of_lt h]

theorem loByte_ofNat_toNat (n : Nat) : (loByte (BitVec.ofNat 16 n)).toNat = n % 256 := by
  simp only [loByte, BitVec.extractLsb'_toNat, BitVec.toNat_ofNat, Nat.shiftRight_zero]
  omega

/-- CHSTATE bit by bit and field by field, for any values of its items. -/
theorem packed_chState_fields : ∀ (r h t : Bool) (q : BitVec 3) (m : BitVec 2) (b : BitVec 8),
    b = (BitVec.ofBool r ++ BitVec.ofBool h) ++ (BitVec.ofBool t ++ (q ++ m)) →
    (b.getLsbD 7 = r ∧ b.getLsbD 6 = h ∧ b.getLsbD 5 = t) ∧ b.extractLsb' 2 3 = q ∧
      b.extractLsb' 0 2 = m := by
  rintro r h t q m _ rfl
  revert r h t q m
  decide

theorem Channel.chState_fields (ch : Channel) :
    (ch.chState.getLsbD 7 = ch.response.isSome ∧ ch.chState.getLsbD 6 = ch.holdOutstanding ∧
      ch.chState.getLsbD 5 = ch.holdTimer.isSome) ∧
    ch.chState.extractLsb' 2 3 = ch.sequencer.state.code ∧
    ch.chState.extractLsb' 0 2 = ch.mode.code :=
  packed_chState_fields _ _ _ _ _ _ rfl

theorem State.cond_high_zero (s : State) : s.cond &&& 0xF0 = 0 := by
  refine BitVec.eq_of_getLsbD_eq fun i hi => ?_
  have hmask : ∀ i < 8, i < 4 → (0xF0 : Byte).getLsbD i = false := by decide
  rw [BitVec.getLsbD_and, s.cond_getLsbD]
  by_cases h4 : i < 4
  · rw [hmask i hi h4]
    simp
  · simp [show i ≠ 0 by omega, show i ≠ 1 by omega, show i ≠ 2 by omega, show i ≠ 3 by omega]

/-- The codes of a table give each row's reading. -/
theorem read_of_code {α β : Type} {f : α → β} {l : List (α × β)} (h : ∀ x ∈ l, f x.1 = x.2) {a : α}
    {b : β} (hb : b = f a) : ∀ x ∈ l, a = x.1 → b = x.2 := by
  rintro x hx rfl
  rw [hb, h x hx]

/-- Settles O8: the commands of the bus, the snapshots, and the register map location by location. -/
theorem hostReadReturnsTheLocation : Obligations.HostReadReturnsTheLocation := by
  refine ⟨?_, fun s off hr hne => ?_, exec_lowByteReadSnapshot_data, fun s => ?_⟩
  · rintro resetN csN rdN wrN a d _ rfl
    refine ⟨?_, ?_, fun h => decodeBus_idle h a d⟩
    · rintro rfl rfl rfl rfl
      refine ⟨fun h => ?_, fun h => congrArg some (readCommand_of_ne h)⟩
      subst h
      rfl
    · rintro rfl rfl rfl rfl
      refine ⟨fun h => ?_, fun h => ?_, fun h => ?_, fun h => ⟨rfl, writeCommand_of_strobe h d⟩,
        fun h h5 h6 h17 => congrArg some (writeCommand_of_register h h5 h6 h17 d)⟩
      all_goals subst h; rfl
  · rw [exec_lowByteReadSnapshot_of_high hr hne, State.snapshot_eq]
    rfl
  · refine ⟨⟨rfl, rfl⟩, read_of_code (f := StatusCode.code) (by decide) rfl,
      ⟨s.cond_getLsbD 0, s.cond_getLsbD 1, s.cond_getLsbD 2, s.cond_getLsbD 3, s.cond_high_zero⟩,
      ⟨rfl, rfl, rfl⟩, fun i off => s.readByte_arg, fun i off => s.readByte_res, ⟨rfl, rfl⟩,
      read_of_code (f := PortState.code) (by decide) rfl, fun _ => loByte_ofNat_toNat _,
      fun h => byteOf_toNat (by omega), fun h => byteOf_toNat (by omega),
      ⟨rfl, rfl, rfl, rfl, rfl⟩, ⟨rfl, rfl, rfl, rfl, byteOf_toNat (by omega)⟩, ?_,
      fun off => s.readByte_strobe⟩
    rintro ch rfl
    obtain ⟨hbits, hseq, hmode⟩ := s.window.chState_fields
    exact ⟨⟨rfl, rfl, rfl, rfl, rfl, rfl, rfl, rfl, rfl⟩, hbits,
      read_of_code (f := SeqState.code) (by decide) hseq,
      read_of_code (f := Mode.code) (by decide) hmode⟩

/-! ### Resets -/

theorem State.softReset_chan (s : State) (c : Chan) :
    s.softReset.chan c = (s.chan c).softReset := Quad.get_map Channel.softReset s.chans c

/-- Every access while RESET# is low does nothing (R191). -/
theorem exec_access_of_resetLow {s : State} {i : Instr} (hr : s.resetLow = true)
    (hi : isAccess i = true) : exec i s = .next s := by
  have hstrobe : i ∈ strobes → exec i s = .next s := fun hmem => by
    rw [exec_strobe hmem, State.strobe, State.access_of_low hr]
  cases i with
  | dataRead | dataWrite | eventWrite | lowByteReadSnapshot | registerWrite =>
    exact congrArg Host.Outcome.next (State.access_of_low hr _)
  | alloc | release | seek | take | submit | cancel | flush | popdone | enable | disable | abort
  | clearseq | stwrite | stread | counter | srst => exact hstrobe (by decide)
  | _ => cases hi

/-- Settles O5: both resets by their definitions; with RESET# low no access is taken. -/
theorem resetsReturnToThePinResetState : Obligations.ResetsReturnToThePinResetState := by
  refine ⟨fun s => ⟨s.pinReset, rfl, rfl, fun c => Quad.get_map _ s.chans c⟩, fun s hr => ?_,
    fun s hr hb => ?_⟩
  · refine ⟨fun i => exec_access_of_resetLow hr, by simp [State.intAsserted, hr], fun c => ?_⟩
    simp [State.de, State.txd, hr]
  · have hevent : s.srstBody.event = 0x0001 :=
      show (0 : Half) ||| Event.cmdDone.mask = 0x0001 by decide
    refine ⟨s.srstBody, exec_strobe_of_free (by decide) hr hb, ?_, s.softReset_chan⟩
    apply State.ext
    case resetLow => exact hr
    case event => exact hevent
    all_goals rfl

/-- Settles O4, location by location and item by item. -/
theorem resetShowsTheRegisterMapAndEmptyTables :
    Obligations.ResetShowsTheRegisterMapAndEmptyTables := by
  refine ⟨⟨rfl, by decide +kernel⟩, by decide +kernel, by decide +kernel, fun p => rfl, rfl, rfl, rfl,
    rfl, rfl, rfl, rfl, rfl, rfl, State.reset_station_entry, rfl, rfl, rfl, rfl, fun c => ?_⟩
  have hc : State.reset.chan c = Channel.reset := Quad.get_all _ c
  rw [hc]
  exact ⟨rfl, rfl, rfl, rfl, rfl, rfl, rfl, rfl, rfl, rfl, rfl, rfl, rfl, rfl, rfl, by decide⟩

end Sys2Proof.Machine

/-!
PROOFS. Frame memory, grants, releases and the pool monitor (chapter 2, R148 to R152), and the commands
ALLOC and TAKE (R29, R32, R95 to R97).
-/
namespace Sys2Proof.Machine

/-! ### Chain offsets -/

theorem State.chainAddr_outside {s : State} {h : Page} {off : Nat} (hoff : 64 * s.pageCount h ≤ off) :
    s.chainAddr h off = none := by
  have hpos : s.pageCount h ≤ off / 64 := by omega
  rw [State.chainAddr, show off / Config.pageSize = off / 64 from rfl, List.getElem?_eq_none hpos]
  rfl

theorem State.storeChain_outside {s : State} {h : Page} {off : Nat}
    (hoff : 64 * s.pageCount h ≤ off) (v : Byte) : s.storeChain h off v = s := by
  simp only [State.storeChain, State.chainAddr_outside hoff]

/-- Settles O12, from the address of a chain offset and the law of a store to memory. -/
theorem chainByteStoresAndReadsBack : Obligations.ChainByteStoresAndReadsBack := by
  refine ⟨fun s h off v hwf => ⟨fun p hp => ?_, fun hoff => ?_⟩, fun s h off => ⟨rfl, fun b bs => rfl⟩⟩
  · have hstore := State.storeChain_of_page hp v
    have hread : ∀ a, (s.storeChain h off v).mem.read a =
        if a = 64 * p.toNat + off % 64 then v else s.mem.read a := fun a => by
      rw [hstore]
      exact Memory.read_write hwf _ v a
    refine ⟨State.chainAddr_of_page hp, hstore, ?_, State.wf_storeChain hwf h off v, fun a ha => ?_⟩
    · have hp' : ((s.storeChain h off v).chainPages h)[off / 64]? = some p := by
        simpa [State.chainPages] using hp
      rw [State.chainByte_of_page hp', hread, if_pos rfl]
    · rw [hread, if_neg (by simpa using ha)]
  · exact ⟨State.chainAddr_outside hoff, State.storeChain_outside hoff v⟩

/-! ### Grants, releases and changes of holder -/

theorem State.poolJudge_pageTable (s : State) : s.poolJudge.pageTable = s.pageTable := by simp

theorem State.poolJudge_freeList (s : State) : s.poolJudge.freeList = s.freeList := by simp

theorem State.grant_pageTable (s : State) (o : Owner) (n : Nat) :
    (s.grant o n).pageTable = PageTable.link o true (s.freeList.take n) s.pageTable :=
  State.poolJudge_pageTable _

theorem State.grant_freeList (s : State) (o : Owner) (n : Nat) :
    (s.grant o n).freeList = s.freeList.drop n := State.poolJudge_freeList _

theorem State.release_pageTable (s : State) (h : Page) :
    (s.release h).pageTable = s.pageTable.release (s.chainPages h) := State.poolJudge_pageTable _

theorem State.release_freeList (s : State) (h : Page) :
    (s.release h).freeList = s.freeList ++ s.chainPages h := State.poolJudge_freeList _

theorem State.grant_mem (s : State) (o : Owner) (n : Nat) : (s.grant o n).mem = s.mem := by simp

theorem State.release_mem (s : State) (h : Page) : (s.release h).mem = s.mem := by simp

/-- The record of a page that a grant takes (R25). -/
theorem State.grant_record {s : State} {o : Owner} {n i : Nat} {p : Page} (hw : s.pageTable.wf)
    (hnd : s.freeList.Nodup) (hi : i < n) (hp : s.freeList[i]? = some p) :
    (s.grant o n).pageTable.record p =
      ⟨o, i == 0, if i + 1 < n then s.freeList[i + 1]? else none⟩ := by
  have hp' : (s.freeList.take n)[i]? = some p := by rw [List.getElem?_take, if_pos hi, hp]
  rw [State.grant_pageTable,
    (PageTable.record_link o true hw (hnd.sublist (List.take_sublist n _)) p).2 i hp',
    List.getElem?_take, Bool.true_and]

/-- The record of a page that a grant leaves. -/
theorem State.grant_record_of_not_taken {s : State} {o : Owner} {n : Nat} {p : Page}
    (hw : s.pageTable.wf) (hnd : s.freeList.Nodup) (hp : p ∉ s.freeList.take n) :
    (s.grant o n).pageTable.record p = s.pageTable.record p := by
  rw [State.grant_pageTable]
  exact (PageTable.record_link o true hw (hnd.sublist (List.take_sublist n _)) p).1 hp

/-- The chain of a grant is what it took from the free list, in order (R25). -/
theorem State.grant_chainPages {s : State} {o : Owner} {n : Nat} {h : Page} (hw : s.pageTable.wf)
    (hnd : s.freeList.Nodup) (hh : s.freeList.head? = some h) (h1 : 1 ≤ n) (h4 : n ≤ 4) :
    (s.grant o n).chainPages h = s.freeList.take n := by
  have hhead : (s.freeList.take n)[0]? = some h := by
    rw [List.getElem?_take, if_pos (by omega), ← List.head?_eq_getElem?, hh]
  rw [State.chainPages, State.grant_pageTable,
    PageTable.walk_link o true hw (hnd.sublist (List.take_sublist n _)) _ 0 h hhead, List.drop_zero,
    List.take_take, show Config.maxChain = 4 from rfl, Nat.min_eq_right h4]

/-- Settles O13, from the records of a linked, a freed and a rewritten chain. -/
theorem grantReleaseAndHolderChangeActOnThePageRecords :
    Obligations.GrantReleaseAndHolderChangeActOnThePageRecords := by
  refine ⟨fun s o n hw hnd hn _ => ?_, fun s h hw => ?_, fun s h o hw => ?_⟩
  · refine ⟨s.grant_freeList o n, ?_, fun i p => State.grant_record hw hnd,
      fun p => State.grant_record_of_not_taken hw hnd, s.grant_mem o n, ?_,
      fun h => State.grant_chainPages hw hnd⟩
    · rw [State.freeCount, State.grant_freeList, List.length_drop]
      exact Nat.sub_add_cancel hn
    · rw [State.grant_pageTable]
      exact PageTable.wf_link o true _ hw
  · refine ⟨s.release_freeList h, ?_, fun p hp => ?_, fun p hp => ?_, s.release_mem h, ?_⟩
    · rw [State.freeCount, State.release_freeList, List.length_append]
      rfl
    · rw [State.release_pageTable, PageTable.record_release _ hw, if_pos hp]
      rfl
    · rw [State.release_pageTable, PageTable.record_release _ hw, if_neg hp]
    · rw [State.release_pageTable]
      exact PageTable.wf_release _ hw
  · refine ⟨rfl, fun p hp => ?_, fun p hp => ?_, State.chainPages_setOwner h o hw,
      PageTable.wf_own o _ hw⟩
    · exact (PageTable.record_own o _ hw p).trans (if_pos hp)
    · exact (PageTable.record_own o _ hw p).trans (if_neg hp)

/-! ### The pool monitor -/

theorem Channel.hasOwn_iff (ch : Channel) :
    ch.hasOwn = true ↔ 0x01 ≤ ch.ownAddr.toNat ∧ ch.ownAddr.toNat ≤ 0xEF := by
  simp [Channel.hasOwn, isIndividual]

theorem Channel.hasOwn_false_iff (ch : Channel) :
    ch.hasOwn = false ↔ ch.ownAddr.toNat = 0 ∨ 0xEF < ch.ownAddr.toNat := by
  rw [← Bool.not_eq_true, Channel.hasOwn_iff]
  omega

theorem Channel.inService_of_rest {ch : Channel} (h : ch.mode = .off ∨ ch.mode = .aborting) :
    ch.inService = false := by
  rcases h with h | h <;> simp [Channel.inService, h]

/-- Entry to LOW where no flow frame is in the slot. -/
theorem Channel.enterLow_of_empty {ch : Channel} (hs : ch.inService = true) (hf : ch.flow = none) :
    ch.enterLow =
      if ch.holdOutstanding || (ch.holdSend && ch.hasOwn) then { ch with flow := some (newFlow false) }
      else ch := by
  simp only [Channel.enterLow, hs, if_true, hf]
  rfl

/-- Entry to LOW where a flow frame is in the slot. -/
theorem Channel.enterLow_of_frame {ch : Channel} {f : FlowFrame} (hs : ch.inService = true)
    (hf : ch.flow = some f) :
    ch.enterLow =
      if f.resume && f.phase != .sending then { ch with flow := some (newFlow false) } else ch := by
  simp only [Channel.enterLow, hs, if_true, hf]
  rfl

theorem Channel.enterNormal_of_empty {ch : Channel} (hf : ch.flow = none) :
    ch.enterNormal =
      if ch.holdOutstanding then { ch with flow := some (newFlow true), refresh := none }
      else { ch with refresh := none } := by
  simp only [Channel.enterNormal, hf]
  rfl

theorem Channel.enterNormal_of_frame {ch : Channel} {f : FlowFrame} (hf : ch.flow = some f) :
    ch.enterNormal =
      if f.resume || f.phase == .sending then { ch with refresh := none }
      else if ch.holdOutstanding then { ch with flow := some (newFlow true), refresh := none }
      else { ch with flow := none, refresh := none } := by
  simp only [Channel.enterNormal, hf]
  rfl

theorem State.poolJudge_of_normal {s : State} (h : s.pool = .normal) :
    s.poolJudge =
      if s.freeCount ≤ s.holdLevel.toNat then
        { s with
          pool := .low, event := s.event ||| 0x0004, chans := s.chans.map Channel.enterLow }
      else s := by
  simp only [State.poolJudge, h]
  rfl

theorem State.poolJudge_of_low {s : State} (h : s.pool = .low) :
    s.poolJudge =
      if max s.resumeLevel.toNat (s.holdLevel.toNat + 1) ≤ s.freeCount then
        { s with
          pool := .normal, event := s.event ||| 0x0008
          chans := s.chans.map Channel.enterNormal }
      else s := by
  simp only [State.poolJudge, h]
  rfl

/-- Settles O14: the monitor by its state and the free count, and each row of the two tables. -/
theorem poolMonitorJudgesTheFreeCountAndFillsTheSlots :
    Obligations.PoolMonitorJudgesTheFreeCountAndFillsTheSlots := by
  refine ⟨fun s o n h => ⟨?_, ?_⟩, fun s => ⟨fun hp hc => ?_, fun hp hc => ?_, fun hp hc => ?_,
    fun hp hc => ?_⟩, fun ch => ⟨fun hm => ?_, fun hm => ?_⟩, fun ch => ?_⟩
  · rw [State.grant_pageTable]
    rfl
  · rw [State.release_pageTable]
    rfl
  · rw [State.poolJudge_of_normal hp, if_pos hc]
  · rw [State.poolJudge_of_normal hp, if_neg (Nat.not_le.mpr hc)]
  · rw [State.poolJudge_of_low hp, if_pos hc]
  · rw [State.poolJudge_of_low hp, if_neg (Nat.not_le.mpr hc)]
  · simp [Channel.enterLow, Channel.inService_of_rest hm]
  · have hs := Channel.inService_of hm
    refine ⟨fun hf ho => ?_, fun hf _ hsend h1 h2 => ?_, fun hf ho hno => ?_,
      fun f hf hr hp => ?_, fun f hf hr _ => ?_, fun f hf hp => ?_⟩
    · simp [Channel.enterLow_of_empty hs hf, ho]
    · have hown := ch.hasOwn_iff.mpr ⟨h1, h2⟩
      simp [Channel.enterLow_of_empty hs hf, show ch.holdSend = true from hsend, hown]
    · rcases hno with hsend | hown
      · simp [Channel.enterLow_of_empty hs hf, ho,
          show ch.holdSend = false from hsend]
      · simp [Channel.enterLow_of_empty hs hf, ho, ch.hasOwn_false_iff.mpr hown]
    · simp [Channel.enterLow_of_frame hs hf, hr, hp]
    · simp [Channel.enterLow_of_frame hs hf, hr]
    · simp [Channel.enterLow_of_frame hs hf, hp]
  · refine ⟨fun f hf hr hp ho => ?_, fun f hf hr hp ho => ?_, fun hf ho => ?_, fun hf ho => ?_,
      fun f hf hr _ => ?_, fun f hf hp => ?_⟩
    · simp [Channel.enterNormal_of_frame hf, hr, hp, ho]
    · simp [Channel.enterNormal_of_frame hf, hr, hp, ho]
    · simp [Channel.enterNormal_of_empty hf, ho]
    · simp [Channel.enterNormal_of_empty hf, ho]
    · simp [Channel.enterNormal_of_frame hf, hr]
    · simp [Channel.enterNormal_of_frame hf, hp]

/-! ### ALLOC -/

theorem exec_alloc_of_free {s : State} (hr : s.resetLow = false) (hb : s.busy = none) :
    exec .alloc s = .next s.allocBody := exec_strobe_of_free (i := .alloc) (by decide) hr hb

theorem State.allocBody_of_bad {s : State} (h : s.arg[0].toNat = 0 ∨ 4 < s.arg[0].toNat) :
    s.allocBody = s.completed .badArg := if_pos h

theorem State.allocBody_of_range {s : State} (h1 : 1 ≤ s.arg[0].toNat) (h4 : s.arg[0].toNat ≤ 4) :
    s.allocBody = (s.serveAll.allocPages s.arg[0].toNat).settle :=
  if_neg (show ¬(s.arg[0].toNat = 0 ∨ 4 < s.arg[0].toNat) by omega)

theorem State.allocPages_of_no_room {s : State} {n : Nat} (h : s.freeCount < n) :
    s.allocPages n = s.completed .noRoom := if_neg (Nat.not_le.mpr h)

theorem State.allocPages_of_room {s : State} {n : Nat} {h : Page} (hn : n ≤ s.freeCount)
    (hh : s.freeList.head? = some h) :
    s.allocPages n = State.completed { s.grant .held n with res := s.res.set 0 h } .ok := by
  have hres : (s.grant .held n).res = s.res := by simp
  unfold State.allocPages
  rw [if_pos hn]
  split
  · next hnil => rw [hnil] at hh; cases hh
  · next h' ps' hcons =>
    obtain rfl : h' = h := by simpa [hcons] using hh
    rw [← hres]
    rfl

/-- Settles O15, by ARG0 and by the free count after the waiting requests are served. -/
theorem allocGrantsOrRefuses : Obligations.AllocGrantsOrRefuses := by
  rintro s _ hr hb rfl
  rw [exec_alloc_of_free hr hb]
  refine ⟨fun h => ?_, fun h1 h4 hlt => ?_, fun h h1 h4 hle hh => ?_, fun hno => ?_⟩
  · rw [State.allocBody_of_bad h]
  · rw [State.allocBody_of_range h1 h4, State.allocPages_of_no_room hlt]
  · rw [State.allocBody_of_range h1 h4, State.allocPages_of_room hle hh,
      show s.serveAll.res = s.res by simp]
  · rw [State.serveAll, State.serveOne_of_none hno, State.serveOne_of_none hno,
      State.serveOne_of_none hno, State.serveOne_of_none hno]

/-! ### TAKE -/

/-- Eight bytes loaded from RES0 on are the result registers. -/
theorem State.loadRes_eight (s : State) (a b c d e f g h : Byte) :
    s.loadRes 0 [a, b, c, d, e, f, g, h] = { s with res := #v[a, b, c, d, e, f, g, h] } := by
  rw [State.loadRes_eq]
  congr 1
  ext j hj
  rw [State.loadRes_res _ _ _ _ hj]
  match j with
  | 0 | 1 | 2 | 3 | 4 | 5 | 6 | 7 => rfl
  | j + 8 => omega

theorem exec_take_of_free {s : State} (hr : s.resetLow = false) (hb : s.busy = none) :
    exec .take s = .next s.takeBody := exec_strobe_of_free (i := .take) (by decide) hr hb

theorem State.takeBody_of_cons {s : State} {e : RxEntry} {rest : List RxEntry}
    (h : s.rfq = e :: rest) :
    s.takeBody =
      State.completed
        { s with
          rfq := rest
          pageTable := s.pageTable.own .held (s.chainPages e.head)
          res := #v[e.head, BitVec.ofNat 8 (e.cls.code * 4 + e.chan.val), e.dest, e.src, e.ctrl,
            e.len, e.arrival.extractLsb' 0 8, e.arrival.extractLsb' 8 8]
          port := ⟨.attached, e.head, 0x00⟩ } .ok := by
  unfold State.takeBody
  rw [h]
  dsimp only [receiveHeader]
  rw [State.loadRes_eight]
  rfl

/-- Settles O18, by whether the received frame queue is empty. -/
theorem takeHandsOverTheOldestFrame : Obligations.TakeHandsOverTheOldestFrame := by
  refine ⟨⟨rfl, rfl, rfl, rfl⟩, fun s hr hb => ?_⟩
  rw [exec_take_of_free hr hb]
  refine ⟨fun h => ?_, fun e rest h => ?_⟩
  · rw [State.takeBody, h]
    rfl
  · rw [State.takeBody_of_cons h]

end Sys2Proof.Machine

/-!
PROOFS. The host's commands over the transmit queues and the completion queue (chapter 6): SUBMIT,
CANCEL, FLUSH and POPDONE, and how an entry completes.
-/
namespace Sys2Proof.Machine

/-! ### SUBMIT -/

theorem submitChan_of_ge {b : Byte} (h : 4 ≤ b.toNat % 8) : submitChan b = none :=
  chanArg_of_ge (by rwa [BitVec.toNat_and, show (0x07 : Byte).toNat = 2 ^ 3 - 1 from rfl,
    Nat.and_two_pow_sub_one_eq_mod])

theorem submitChan_of_eq {b : Byte} {c : Chan} (h : c.val = b.toNat % 8) : submitChan b = some c :=
  chanArg_of_eq (by rwa [BitVec.toNat_and, show (0x07 : Byte).toNat = 2 ^ 3 - 1 from rfl,
    Nat.and_two_pow_sub_one_eq_mod])

/-- The five causes of BADARG in SUBMIT's third test, the channel number aside (R106). -/
theorem submitArgsOk_false_iff (ch : Channel) (ar : Bool) (dest len : Byte) :
    submitArgsOk ch ar dest len = false ↔
      dest = 0x00 ∨ 240 < len.toNat ∨ (ar = true ∧ 0xF0 ≤ dest.toNat) ∨
        ch.ownAddr = 0x00 ∨ 0xF0 ≤ ch.ownAddr.toNat := by
  have hz : ∀ b : Byte, b = 0x00 ↔ b.toNat = 0 := fun b => by
    rw [← BitVec.toNat_inj]
    rfl
  rw [← Bool.not_eq_true]
  simp only [submitArgsOk, isIndividual, Channel.hasOwn, Bool.and_eq_true, Bool.or_eq_true,
    Bool.not_eq_true', bne_iff_ne, decide_eq_true_eq, ne_eq, hz]
  cases ar with
  | false => simp only [true_or, and_true, Bool.false_eq_true, false_and, false_or]; omega
  | true => simp only [true_and, Bool.true_eq_false, false_or]; omega

section
variable {s : State} (hh : s.isHeldHead s.arg[0] = true)
  (hck : s.arg[5] = ~~~(s.arg[2] ^^^ s.arg[3]))

theorem State.submitBody_of_not_held (hn : s.isHeldHead s.arg[0] = false) :
    s.submitBody = s.completed .badChain :=
  if_pos (show (!s.isHeldHead s.arg[0]) = true by rw [hn]; rfl)

include hh hck

theorem State.submitBody_of_channel_out_of_range (hc : 4 ≤ s.arg[1].toNat % 8) :
    s.submitBody = s.completed .badArg := by
  have hheld : ¬ (!s.isHeldHead (s.argByte 0)) = true := by simpa [State.argByte] using hh
  have hright : ¬ s.argByte 5 ≠ checkByte (s.argByte 2) (s.argByte 3) := not_not_intro hck
  have hchan : submitChan (s.argByte 1) = none := submitChan_of_ge hc
  rw [State.submitBody, if_neg hheld, if_neg hright, hchan]
  rfl

/-- SUBMIT for a channel of the part, past the tests of the chain and of the check byte (R106). -/
theorem State.submitBody_of_channel {c : Chan} (hc : c.val = s.arg[1].toNat % 8) :
    s.submitBody =
      if submitArgsOk (s.chan c) (s.arg[1].getLsbD 7) s.arg[2] s.arg[3] = false then
        s.completed .badArg
      else if s.pageCount s.arg[0] < pagesFor s.arg[3].toNat then s.completed .badLen
      else if 8 ≤ (s.chan c).txq.length then s.completed .qFull
      else s.submitAccept c := by
  have hheld : ¬ (!s.isHeldHead (s.argByte 0)) = true := by simpa [State.argByte] using hh
  have hright : ¬ s.argByte 5 ≠ checkByte (s.argByte 2) (s.argByte 3) := not_not_intro hck
  have hchan : submitChan (s.argByte 1) = some c := submitChan_of_eq hc
  rw [State.submitBody, if_neg hheld, if_neg hright, hchan]
  simp only [Bool.not_eq_true']
  rfl

end

/-- Settles O20, test by test in SUBMIT's order. -/
theorem submitRefusesInTheOrderOfItsTests : Obligations.SubmitRefusesInTheOrderOfItsTests := by
  intro s hr hb
  rw [exec_submit_of_free hr hb]
  refine ⟨fun hn => by rw [State.submitBody_of_not_held hn], fun hh hck => ⟨fun hc => ?_,
    fun c hc => ⟨fun hbad => ?_, fun hgood => ⟨fun hlen => ?_, fun hlen hfull => ?_⟩⟩⟩⟩
  · rw [State.submitBody_of_channel_out_of_range hh hck hc]
  · rw [State.submitBody_of_channel hh hck hc, if_pos ((submitArgsOk_false_iff ..).mpr hbad)]
  · rw [State.submitBody_of_channel hh hck hc, if_neg (mt (submitArgsOk_false_iff ..).mp hgood),
      if_pos hlen]
  · rw [State.submitBody_of_channel hh hck hc, if_neg (mt (submitArgsOk_false_iff ..).mp hgood),
      if_neg (Nat.not_lt.mpr hlen), if_pos hfull]

theorem State.storeBytes_eq (s : State) (h : Page) (off : Nat) (l : List Byte) :
    s.storeBytes h off l = { s with mem := (s.storeBytes h off l).mem } := by
  apply State.ext <;> simp

/-- Work that arrives wakes an IDLE sequencer of a RUN channel (R123). -/
theorem Channel.workArrived_of_cons {ch : Channel} (h : ch.txq ≠ []) :
    ch.workArrived =
      { ch with
        sequencer :=
          if ch.mode = .run ∧ ch.sequencer.state = .idle then
            { ch.sequencer with state := .defer, timer := none }
          else ch.sequencer } := by
  unfold Channel.workArrived
  by_cases hw : ch.mode = .run ∧ ch.sequencer.state = .idle
  · rw [if_pos ⟨hw.1, h, hw.2⟩, if_pos hw]
    rfl
  · rw [if_neg fun hall => hw ⟨hall.1, hall.2.2⟩, if_neg hw]

theorem State.submitAccept_eq (s : State) (c : Chan) {e : TxEntry} (he : e = s.submitEntry c) :
    s.submitAccept c =
      State.completed
        { State.updChan s c fun ch =>
            Channel.workArrived { ch with txq := ch.txq ++ [e], seqCounter := ch.seqCounter + 1 } with
          mem := (s.storeBytes e.head 0 (transmitHeader c e)).mem
          pageTable := s.pageTable.own (.queuedTx c) (s.chainPages e.head)
          res := s.res.set 0 (e.seq.setWidth 8)
          port := s.portWithout e.head } .ok := by
  obtain ⟨m, hm⟩ : ∃ m, s.storeBytes e.head 0 (transmitHeader c e) = { s with mem := m } :=
    ⟨_, s.storeBytes_eq _ _ _⟩
  rw [State.submitAccept, ← he]
  dsimp only
  rw [hm, State.detachFrom_eq]
  rfl

/-- Settles O21: every test passes, and the acceptance is one change of each part. -/
theorem submitQueuesTheChain : Obligations.SubmitQueuesTheChain := by
  intro s c e hr hb hh hck hc hdest hlen hind hown hown' hpages hroom he
  have hok : ¬ submitArgsOk (s.chan c) (s.arg[1].getLsbD 7) s.arg[2] s.arg[3] = false := by
    rw [submitArgsOk_false_iff]
    rintro (h | h | ⟨har, h⟩ | h | h)
    · exact hdest h
    · omega
    · have := hind har; omega
    · exact hown h
    · omega
  have hentry : e = s.submitEntry c := he
  have hwork : ∀ ch : Channel, Channel.workArrived
      { ch with txq := ch.txq ++ [e], seqCounter := ch.seqCounter + 1 } = _ :=
    fun ch => Channel.workArrived_of_cons (by simp)
  rw [exec_submit_of_free hr hb, State.submitBody_of_channel hh hck hc, if_neg hok,
    if_neg (Nat.not_lt.mpr hpages), if_neg (Nat.not_le.mpr hroom), State.submitAccept_eq s c hentry]
  simp only [hwork]
  rfl

/-! ### CANCEL -/

theorem exec_cancel_of_free {s : State} (hr : s.resetLow = false) (hb : s.busy = none) :
    exec .cancel s = .next s.cancelBody := exec_strobe_of_free (i := .cancel) (by decide) hr hb

theorem Channel.headWithdrawn_eq (ch : Channel) :
    ch.headWithdrawn =
      { ch with
        sequencer :=
          if ch.txq = [] ∧ ch.sequencer.state = .defer then { ch.sequencer with state := .idle }
          else ch.sequencer } := by
  unfold Channel.headWithdrawn
  by_cases hw : ch.txq = [] ∧ ch.sequencer.state = .defer
  · rw [if_pos (by simpa using hw), if_pos hw]
  · rw [if_neg (by simpa using hw), if_neg hw]

theorem State.cancelBody_of_found {s : State} {c : Chan} {e : TxEntry} {before after : List TxEntry}
    (hc : c.val = s.arg[0].toNat) (hq : (s.chan c).txq = before ++ e :: after)
    (hact : e.active = false) (htag : e.tag = s.arg[1])
    (hbefore : ∀ x ∈ before, x.active = true ∨ x.tag ≠ s.arg[1]) :
    s.cancelBody =
      State.completed
        { State.updChan s c fun ch =>
            { ch with
              txq := before ++ after
              sequencer :=
                if before ++ after = [] ∧ ch.sequencer.state = .defer then
                  { ch.sequencer with state := .idle }
                else ch.sequencer } with
          pageTable := s.pageTable.own .held (s.chainPages e.head)
          res := s.res.set 0 e.head } .ok := by
  have hchan : chanArg (s.argByte 0) = some c := chanArg_of_eq hc
  have hpass : (!e.active && e.tag == s.argByte 1) = true := by simp [hact, htag, State.argByte]
  have hskip : ∀ x ∈ before, (!x.active && x.tag == s.argByte 1) = false := fun x hx => by
    rcases hbefore x hx with h | h <;> simp [h, State.argByte]
  have hfind : findCancel (s.chan c).txq (s.argByte 1) = some e :=
    List.find?_eq_some_iff_append.mpr ⟨hpass, before, after, hq, fun x hx => by simp [hskip x hx]⟩
  have herase : (s.chan c).txq.eraseP (fun e => !e.active && e.tag == s.argByte 1) =
      before ++ after := by
    rw [hq, List.eraseP_append_right _ fun x hx => by simp [hskip x hx],
      List.eraseP_cons_of_pos (p := fun e : TxEntry => !e.active && e.tag == s.argByte 1) hpass]
  have hupd : (s.setOwner e.head .held).updChan c (fun ch => Channel.headWithdrawn
      { ch with txq := ch.txq.eraseP fun e => !e.active && e.tag == s.argByte 1 }) =
      (s.setOwner e.head .held).updChan c (fun ch =>
        { ch with
          txq := before ++ after
          sequencer :=
            if before ++ after = [] ∧ ch.sequencer.state = .defer then
              { ch.sequencer with state := .idle }
            else ch.sequencer }) :=
    State.updChan_congr (by
      simp only [show (s.setOwner e.head .held).chan c = s.chan c from rfl, herase,
        Channel.headWithdrawn_eq])
  simp only [State.cancelBody, hchan, hfind, hupd]
  rfl

theorem findCancel_none {q : List TxEntry} {tag : Byte} (h : ∀ x ∈ q, x.tag = tag → x.active = true) :
    findCancel q tag = none := by
  refine List.find?_eq_none.mpr fun x hx => ?_
  by_cases ht : x.tag = tag
  · simp [h x hx ht]
  · simp [ht]

theorem State.cancelBody_of_not_found {s : State} {c : Chan} (hc : c.val = s.arg[0].toNat)
    (h : ∀ x ∈ (s.chan c).txq, x.tag = s.arg[1] → x.active = true) :
    s.cancelBody =
      if ∃ x ∈ (s.chan c).txq, x.tag = s.arg[1] then s.completed .active
      else s.completed .notFound := by
  have hchan : chanArg (s.argByte 0) = some c := chanArg_of_eq hc
  have hfind : findCancel (s.chan c).txq (s.argByte 1) = none := findCancel_none h
  simp only [State.cancelBody, hchan, hfind, List.any_eq_true, beq_iff_eq]
  rfl

/-- Settles O22, by the oldest entry that CANCEL may withdraw. -/
theorem cancelWithdrawsTheOldestMatch : Obligations.CancelWithdrawsTheOldestMatch := by
  intro s hr hb
  rw [exec_cancel_of_free hr hb]
  refine ⟨fun h => ?_, fun c hc => ⟨fun before after e hq hact htag hbefore => ?_,
    fun hall hsome => ?_, fun hnone => ?_⟩⟩
  · have hchan : chanArg (s.argByte 0) = none := chanArg_of_ge h
    simp only [State.cancelBody, hchan]
    rfl
  · rw [State.cancelBody_of_found hc hq hact htag hbefore]
  · rw [State.cancelBody_of_not_found hc hall, if_pos hsome]
  · rw [State.cancelBody_of_not_found hc fun x hx ht => absurd ht (hnone x hx),
      if_neg fun ⟨x, hx, ht⟩ => hnone x hx ht]

/-! ### FLUSH -/

theorem exec_flush_of_free {s : State} (hr : s.resetLow = false) (hb : s.busy = none) :
    exec .flush s = .next s.flushBody := exec_strobe_of_free (i := .flush) (by decide) hr hb

theorem State.releaseAll_eq_foldl (s : State) (l : List TxEntry) :
    s.releaseAll l = l.foldl (fun u e => u.release e.head) s := by
  induction l generalizing s with
  | nil => rfl
  | cons e es ih => exact ih (s.release e.head)

/-- Settles O23, by the channel that ARG0 names. -/
theorem flushReleasesWhatIsNotActive : Obligations.FlushReleasesWhatIsNotActive := by
  intro s hr hb
  rw [exec_flush_of_free hr hb]
  refine ⟨fun h => ?_, ?_⟩
  · have hchan : chanArg (s.argByte 0) = none := chanArg_of_ge h
    simp only [State.flushBody, hchan]
    rfl
  · rintro c _ _ _ hc rfl rfl rfl
    have hchan : chanArg (s.argByte 0) = some c := chanArg_of_eq hc
    have hupd : s.updChan c (fun ch => Channel.headWithdrawn
        { ch with txq := ch.txq.filter fun e => e.active }) = _ :=
      State.updChan_congr (g := fun ch =>
        { ch with
          txq := (s.chan c).txq.filter fun e => e.active
          sequencer :=
            if (s.chan c).txq.filter (fun e => e.active) = [] ∧ ch.sequencer.state = .defer then
              { ch.sequencer with state := .idle }
            else ch.sequencer }) (Channel.headWithdrawn_eq _)
    have hset : ∀ (u : State) (b : Byte), u.res = s.res → u.setRes 0 b = { u with res := s.res.set 0 b } :=
      fun u b hu => by rw [← hu]; rfl
    simp only [State.flushBody, hchan, hupd]
    rw [hset, State.releaseAll_eq_foldl]
    · rfl
    · simp

/-! ### Completions -/

theorem TxOutcome.isSuccess_iff (o : TxOutcome) : o.isSuccess = true ↔ o = .sent ∨ o = .acked := by
  cases o <;> simp [TxOutcome.isSuccess]

/-- The head entry of a queue that starts with `e` leaves it (R143). -/
theorem Channel.dropHead_of_cons {ch : Channel} {e : TxEntry} {es : List TxEntry}
    (h : ch.txq = e :: es) :
    ch.dropHead =
      { ch with
        txq := es
        sequencer :=
          { ch.sequencer with
            state := if ch.mode = .run ∧ es ≠ [] then .defer else .idle
            attempts := 0, outcome := none, timer := none } } := by
  simp only [Channel.dropHead, h, List.tail_cons]

theorem State.finishEntry_of_cons {s : State} {c : Chan} {e : TxEntry} {es : List TxEntry}
    (h : (s.chan c).txq = e :: es) (o : TxOutcome) :
    s.finishEntry c o =
      State.updChan
        (if o = .sent ∨ o = .acked then
          State.count
            (State.release
              { s with tcq := s.tcq ++ [⟨c, e.tag, e.seq, o, (s.chan c).sequencer.attempts⟩] } e.head)
            c .txFrames
        else
          State.release
            { s with tcq := s.tcq ++ [⟨c, e.tag, e.seq, o, (s.chan c).sequencer.attempts⟩] } e.head)
        c Channel.dropHead := by
  unfold State.finishEntry
  split
  · next hnil => rw [hnil] at h; cases h
  · next e' es' hcons =>
    obtain ⟨rfl, rfl⟩ : e' = e ∧ es' = es := by simpa [hcons] using h
    exact congrArg (State.updChan · c Channel.dropHead)
      (ite_congr (propext (TxOutcome.isSuccess_iff o)) (fun _ => rfl) fun _ => rfl)

theorem State.claim_of_room {s : State} (h : s.tcq.length < 16) (c : Chan) (o : TxOutcome) :
    s.claim c o = s.finishEntry c o := if_pos h

theorem State.claim_of_full {s : State} (h : 16 ≤ s.tcq.length) (c : Chan) (o : TxOutcome) :
    s.claim c o =
      { State.updChan s c fun ch =>
          { ch with
            sequencer :=
              { ch.sequencer with state := .completeWait, outcome := some o, timer := none } } with
        event := s.event ||| 0x0080 } := if_neg (Nat.not_lt.mpr h)

/-- Settles O25: the steps of R143, and the wait of R144. -/
theorem completionRecordsAndReleases : Obligations.CompletionRecordsAndReleases := by
  rintro s c o e es _ _ hq rfl rfl
  refine ⟨fun h => State.claim_of_room h c o, ?_, fun h => State.claim_of_full h c o⟩
  rw [State.finishEntry_of_cons hq]
  refine State.updChan_congr (Channel.dropHead_of_cons (e := e) ?_)
  rw [← hq]
  split <;> simp <;> rfl

/-! ### POPDONE -/

theorem exec_popdone_of_free {s : State} (hr : s.resetLow = false) (hb : s.busy = none) :
    exec .popdone s = .next s.popdoneBody := exec_strobe_of_free (i := .popdone) (by decide) hr hb

/-- Five bytes loaded from RES0 on take RES0 to RES4 and leave RES5 to RES7. -/
theorem State.loadRes_five (s : State) (a b c d e : Byte) :
    s.loadRes 0 [a, b, c, d, e] =
      { s with res := #v[a, b, c, d, e, s.res[5], s.res[6], s.res[7]] } := by
  rw [State.loadRes_eq]
  congr 1
  ext j hj
  rw [State.loadRes_res _ _ _ _ hj]
  match j with
  | 0 | 1 | 2 | 3 | 4 | 5 | 6 | 7 => rfl
  | j + 8 => omega

theorem State.popdoneBody_of_cons {s u : State} {r : TxRecord} {rest : List TxRecord}
    (h : s.tcq = r :: rest)
    (hu : u = { s with
      tcq := rest
      res := #v[BitVec.ofNat 8 r.chan.val, r.tag, r.seq.setWidth 8, BitVec.ofNat 8 r.outcome.code,
        BitVec.ofNat 8 r.attempts, s.res[5], s.res[6], s.res[7]] }) :
    s.popdoneBody = (u.servePlace.completed .ok).settle := by
  unfold State.popdoneBody
  rw [h]
  dsimp only [recordBytes]
  rw [State.loadRes_five, hu]
  rfl

theorem State.servePlace_of_none {s : State} (h : ∀ c, (s.chan c).sequencer.state ≠ .completeWait) :
    s.servePlace = s := by
  rw [State.servePlace, nextAfter_none fun d => by simpa [State.waiting] using h d]

theorem State.servePlace_of_next {s : State} {c : Chan} {o : TxOutcome} (h : s.NextWaiting c o) :
    s.servePlace = State.finishEntry { s with lastTcq := c } c o := by
  obtain ⟨hwait, hout, hfirst⟩ := h
  have hnext : nextAfter s.lastTcq s.waiting = some c :=
    nextAfter_some (by simpa [State.waiting] using hwait)
      fun d hd => by simpa [State.waiting] using hfirst d hd
  simp only [State.servePlace, hnext, hout]

/-- Settles O24, by the completion queue and then by who waits for the place. -/
theorem popdoneHandsOverTheOldestRecord : Obligations.PopdoneHandsOverTheOldestRecord := by
  refine ⟨⟨rfl, rfl, rfl, rfl, rfl, rfl⟩, fun s hr hb => ?_⟩
  rw [exec_popdone_of_free hr hb]
  refine ⟨fun h => ?_, ?_⟩
  · rw [State.popdoneBody, h]
    rfl
  · intro r rest u hq hu
    rw [State.popdoneBody_of_cons hq hu]
    refine ⟨fun hno => ?_, fun c o hnext => ?_⟩
    · rw [State.servePlace_of_none (s := u) (by rw [hu]; exact hno)]
    · rw [State.servePlace_of_next (s := u) (by rw [hu]; exact hnext)]

end Sys2Proof.Machine

/-!
PROOFS. The host's commands over channels (ENABLE, DISABLE, ABORT), ABORT_COMPLETE, STWRITE, and what
a refused command changes.
-/
namespace Sys2Proof.Machine

/-! ### ENABLE -/

theorem exec_enable_of_free {s : State} (hr : s.resetLow = false) (hb : s.busy = none) :
    exec .enable s = .next s.enableBody := exec_strobe_of_free (i := .enable) (by decide) hr hb

theorem State.enableBody_of_ge {s : State} (h : 4 ≤ s.arg[0].toNat) :
    s.enableBody = s.completed .badArg := by
  rw [State.enableBody, show chanArg (s.argByte 0) = none from chanArg_of_ge h]
  rfl

theorem State.enableBody_of_channel {s : State} {c : Chan} (hc : c.val = s.arg[0].toNat) :
    s.enableBody =
      if (s.chan c).mode = .off then (s.updChan c Channel.enabled).completed .ok
      else s.completed .state := by
  rw [State.enableBody, show chanArg (s.argByte 0) = some c from chanArg_of_eq hc]
  rfl

theorem Channel.enabled_eq (ch : Channel) :
    ch.enabled =
      { ch with
        mode := .run, latchedDiv := ch.div, latchedTwoStop := ch.flags.getLsbD 0, prescale := 0
        rx := if ch.rxd then .looking else .waitHigh
        lowPeriod := if ch.rxd then none else some ⟨0, false⟩
        idle := 0, idleRunning := ch.rxd, idlePhase := 0
        engine := Engine.idle .hunt, holdTimer := none
        sequencer :=
          if ch.txq ≠ [] ∧ ch.sequencer.state = .idle then
            { ch.sequencer with state := .defer, timer := none }
          else ch.sequencer } := by
  unfold Channel.enabled Channel.workArrived
  by_cases hw : ch.txq ≠ [] ∧ ch.sequencer.state = .idle
  · rw [if_pos ⟨rfl, hw⟩, if_pos hw]
    rfl
  · rw [if_neg fun hall => hw hall.2, if_neg hw]
    rfl

/-- Settles O26, by the channel that ARG0 names and its state. -/
theorem enableStartsTheChannel : Obligations.EnableStartsTheChannel := by
  intro s hr hb
  rw [exec_enable_of_free hr hb]
  refine ⟨fun h => by rw [State.enableBody_of_ge h], fun c hc => ⟨fun hm => ?_, fun hm => ?_⟩⟩
  · rw [State.enableBody_of_channel hc, if_neg hm]
  · rw [State.enableBody_of_channel hc, if_pos hm]
    exact congrArg (fun f : Channel → Channel => Host.Outcome.next ((s.updChan c f).completed .ok))
      (funext Channel.enabled_eq)

/-! ### DISABLE and entry into OFF -/

theorem exec_disable_of_free {s : State} (hr : s.resetLow = false) (hb : s.busy = none) :
    exec .disable s = .next s.disableBody := exec_strobe_of_free (i := .disable) (by decide) hr hb

theorem State.disableBody_of_ge {s : State} (h : 4 ≤ s.arg[0].toNat) :
    s.disableBody = s.completed .badArg := by
  rw [State.disableBody, show chanArg (s.argByte 0) = none from chanArg_of_ge h]
  rfl

theorem State.disableBody_of_channel {s : State} {c : Chan} (hc : c.val = s.arg[0].toNat) :
    s.disableBody =
      if (s.chan c).mode = .run then
        (State.completed (s.updChan c fun ch => { ch with mode := .stopping }) .ok).settle
      else s.completed .state := by
  rw [State.disableBody, show chanArg (s.argByte 0) = some c from chanArg_of_eq hc]
  rfl

theorem State.settle_chan_of_mayStop {s : State} {c : Chan} (h : (s.chan c).MayStop) :
    s.settle.chan c = (s.chan c).atOff := by
  rw [State.settle_chan, Channel.settle, if_pos ((Channel.stopReady_iff _).mpr h)]
  rfl

theorem State.settle_chan_of_not_mayStop {s : State} {c : Chan} (h : ¬ (s.chan c).MayStop) :
    s.settle.chan c = s.chan c := by
  rw [State.settle_chan, Channel.settle, if_neg (mt (Channel.stopReady_iff _).mp h)]

theorem State.settle_of_mayStop {s : State} (h : ∃ c, (s.chan c).MayStop) :
    s.settle = { s with event := s.event ||| 0x0040, chans := s.settle.chans } := by
  obtain ⟨c, hc⟩ := h
  have hany : s.chans.any Channel.stopReady = true :=
    (Quad.any_iff _ _).mpr ⟨c, (Channel.stopReady_iff _).mpr hc⟩
  rw [State.settle, hany]
  rfl

theorem State.settled_of_none {s : State} (h : ∀ c, ¬ (s.chan c).MayStop) : s.Settled := fun c => by
  rw [← Bool.not_eq_true, Channel.stopReady_iff]
  exact h c

/-- Settles O27, by DISABLE's argument and then by which channels may stop. -/
theorem disabledChannelEntersOffWhenItMayStop :
    Obligations.DisabledChannelEntersOffWhenItMayStop := by
  refine ⟨fun s hr hb => ?_, fun s => ⟨fun c => State.settle_chan_of_mayStop,
    fun c => State.settle_chan_of_not_mayStop, State.settle_of_mayStop,
    fun h => State.settle_of_settled (State.settled_of_none h), s.settled_settle⟩⟩
  rw [exec_disable_of_free hr hb]
  refine ⟨fun h => by rw [State.disableBody_of_ge h], fun c hc => ⟨fun hm => ?_, fun hm => ?_⟩⟩
  · rw [State.disableBody_of_channel hc, if_neg hm]
  · rw [State.disableBody_of_channel hc, if_pos hm]

/-! ### ABORT -/

theorem exec_abort_of_free {s : State} (hr : s.resetLow = false) (hb : s.busy = none) :
    exec .abort s = .next s.abortBody := exec_strobe_of_free (i := .abort) (by decide) hr hb

theorem exec_abortComplete (c : Chan) (s : State) :
    exec (.abortComplete c) s =
      .next (if (s.chan c).mode = .aborting then (s.abortFinish c).settle else s) := rfl

theorem Channel.abortsAtOnce_iff (ch : Channel) :
    ch.abortsAtOnce = true ↔
      ch.sequencer.state = .backoff ∨ ch.sequencer.state = .awaitAck ∨
      ch.sequencer.state = .busyWait ∨ ch.sequencer.state = .completeWait ∨
      (ch.sequencer.state = .defer ∧ ch.headActive = true) := by
  unfold Channel.abortsAtOnce
  cases ch.sequencer.state <;> simp

theorem State.abortBody_of_ge {s : State} (h : 4 ≤ s.arg[0].toNat) :
    s.abortBody = s.completed .badArg := by
  rw [State.abortBody, show chanArg (s.argByte 0) = none from chanArg_of_ge h]
  rfl

/-- The command unit with another ABORT in hand and another status. -/
def State.withUnit (s : State) (b : Option Chan) (k : StatusCode) : State :=
  { s with busy := b, cmdStatus := k }

theorem State.abortBody_of_channel {s : State} {c : Chan} (hc : c.val = s.arg[0].toNat) :
    s.abortBody =
      if (s.chan c).inService = true then
        if (s.chan c).lineTx = .quiet then ((s.abortStart c).abortFinish c).settle
        else ((s.abortStart c).withUnit (some c) .inProg).settle
      else s.completed .ok := by
  rw [State.abortBody, show chanArg (s.argByte 0) = some c from chanArg_of_eq hc]
  rfl

/-- A release does not look at the command unit. -/
theorem State.release_withUnit (s : State) (b : Option Chan) (k : StatusCode) (h : Page) :
    (s.withUnit b k).release h = (s.release h).withUnit b k := by
  simp only [State.release, State.poolJudge_eq]
  rfl

theorem State.completeAborted_withUnit (s : State) (b : Option Chan) (k : StatusCode) (c : Chan) :
    (s.withUnit b k).completeAborted c = (s.completeAborted c).withUnit b k := by
  unfold State.completeAborted
  rw [show (s.withUnit b k).chan c = s.chan c from rfl, show (s.withUnit b k).tcq = s.tcq from rfl]
  cases (s.chan c).txq with
  | nil => rfl
  | cons e es =>
    dsimp only
    split
    · have hrel := State.release_withUnit
        { s with tcq := s.tcq ++ [recordOf c e .aborted (s.chan c).sequencer.attempts] } b k e.head
      exact congrArg (State.updChan · c _) hrel
    · have hrel := State.release_withUnit (s.raise .tcqLost) b k e.head
      exact congrArg (State.updChan · c _) hrel

/-- ABORT_COMPLETE leaves the command unit free whatever it found there (R171). -/
theorem State.abortFinish_withUnit (s : State) (b : Option Chan) (k : StatusCode) (c : Chan) :
    (s.withUnit b k).abortFinish c = s.abortFinish c := by
  have hend : (s.withUnit b k).abortEnd c = (s.abortEnd c).withUnit b k := by
    unfold State.abortEnd
    rw [show (s.withUnit b k).chan c = s.chan c from rfl]
    split
    · exact State.completeAborted_withUnit (s.setLine c .quiet) b k c
    · rfl
  rw [State.abortFinish_eq, hend, State.abortFinish_eq]
  rfl

theorem State.abortStart_mode (s : State) (c : Chan) : ((s.abortStart c).chan c).mode = .aborting := by
  rw [(s.abortStart_steady c).aborting c, State.chan_updChan_same]
  rfl

/-- ABORT with the line transmitter QUIET completes as ABORT_COMPLETE would complete it. -/
theorem State.abortComplete_of_abortStart (s : State) (c : Chan) :
    exec (.abortComplete c) ((s.abortStart c).withUnit (some c) .inProg) =
      .next ((s.abortStart c).abortFinish c).settle := by
  have hm : (((s.abortStart c).withUnit (some c) .inProg).chan c).mode = .aborting :=
    s.abortStart_mode c
  rw [exec_abortComplete, if_pos hm, State.abortFinish_withUnit]

/-- Settles O28, by the channel that ARG0 names, its state and its line transmitter. -/
theorem abortStopsTheChannel : Obligations.AbortStopsTheChannel := by
  intro s hr hb
  rw [exec_abort_of_free hr hb]
  refine ⟨fun h => by rw [State.abortBody_of_ge h], fun c u v w hc => ⟨fun hm => ?_, ?_⟩⟩
  · rw [State.abortBody_of_channel hc, if_neg (by simp [Channel.inService, hm])]
  · rintro hm rfl rfl hw
    have hstart : w = s.abortStart c :=
      hw.trans (ite_congr (propext (Channel.abortsAtOnce_iff _).symm) (fun _ => rfl) fun _ => rfl)
    subst hstart
    rw [State.abortBody_of_channel hc, if_pos (Channel.inService_of hm)]
    refine ⟨fun hl => by rw [if_neg hl]; rfl, fun hl => ?_⟩
    rw [if_pos hl]
    exact (s.abortComplete_of_abortStart c).symm

theorem State.completeAborted_of_cons {s u : State} {c : Chan} {e : TxEntry} {es : List TxEntry}
    (hq : (s.chan c).txq = e :: es)
    (hroom : s.tcq.length < 16 →
      u = { s with tcq := s.tcq ++ [⟨c, e.tag, e.seq, .aborted, (s.chan c).sequencer.attempts⟩] })
    (hfull : 16 ≤ s.tcq.length → u = { s with event := s.event ||| 0x0100 }) :
    s.completeAborted c =
      (u.release e.head).updChan c fun ch =>
        { ch with txq := es, sequencer := ⟨.idle, 0, ch.sequencer.limit, none, none⟩ } := by
  have hchan : u.chan c = s.chan c := by
    by_cases hlen : s.tcq.length < 16
    · rw [hroom hlen]; rfl
    · rw [hfull (Nat.not_lt.mp hlen)]; rfl
  have hu : u = if s.tcq.length < Config.tcqCapacity then
      { s with tcq := s.tcq ++ [recordOf c e .aborted (s.chan c).sequencer.attempts] }
      else s.raise .tcqLost := by
    split
    · next hlen => exact hroom hlen
    · next hlen => exact hfull (Nat.not_lt.mp hlen)
  unfold State.completeAborted
  split
  · next hnil => rw [hnil] at hq; cases hq
  · next e' es' hcons =>
    obtain ⟨rfl, rfl⟩ : e' = e ∧ es' = es := by simpa [hcons] using hq
    dsimp only
    rw [← hu]
    refine State.updChan_congr ?_
    have htxq : ((u.release e'.head).chan c).txq = e' :: es' := by simp [hchan, hcons]
    rw [htxq]
    rfl

/-- Settles O29: ABORT_COMPLETE by the channel's state, and the record by the room there is. -/
theorem abortCompletesAndRecordsTheEntry : Obligations.AbortCompletesAndRecordsTheEntry := by
  refine ⟨fun s c u v => ⟨?_, fun hm => ?_⟩, fun s c e es u => State.completeAborted_of_cons⟩
  · rintro hm rfl rfl
    rw [exec_abortComplete, if_pos hm]
    rfl
  · rw [exec_abortComplete, if_neg hm]

/-! ### STWRITE -/

theorem exec_stwrite_of_free {s : State} (hr : s.resetLow = false) (hb : s.busy = none) :
    exec .stwrite s = .next s.stwriteBody := exec_strobe_of_free (i := .stwrite) (by decide) hr hb

theorem State.stwriteBody_of_ge {s : State} (h : 16 ≤ s.arg[0].toNat) :
    s.stwriteBody = s.completed .badArg := by
  rw [State.stwriteBody, show stationArg (s.argByte 0) = none from stationArg_of_ge h]
  rfl

theorem State.stwriteBody_of_index {s : State} {i : Fin 16} (hi : i.val = s.arg[0].toNat) :
    s.stwriteBody =
      if s.arg[1] = 0x00 ∨ s.arg[1] = 0xFF then s.completed .badArg
      else
        State.completed
          { s with station := s.station.set i (unpackStation s.arg[1] s.arg[2]) } .ok := by
  rw [State.stwriteBody, show stationArg (s.argByte 0) = some i from stationArg_of_eq hi]
  rfl

/-- An address is listed for a channel exactly where some valid entry lists it (R49). -/
theorem State.listed_iff (s : State) (c : Chan) (d : Byte) :
    s.listed c d = true ↔
      ∃ i : Fin 16, s.station[i].valid = true ∧ s.station[i].addr = d ∧
        s.station[i].mask.getLsbD c.val = true := by
  simp only [State.listed, List.any_eq_true, Bool.and_eq_true, beq_iff_eq, and_assoc]
  constructor
  · rintro ⟨e, he, h⟩
    obtain ⟨i, hi, rfl⟩ := Vector.mem_iff_getElem.mp (Vector.mem_toList_iff.mp he)
    exact ⟨⟨i, hi⟩, h⟩
  · rintro ⟨i, h⟩
    exact ⟨s.station[i], Vector.mem_toList_iff.mpr (Vector.getElem_mem i.isLt), h⟩

/-- Settles O31, by STWRITE's index and address. -/
theorem stwriteReplacesAnEntry : Obligations.StwriteReplacesAnEntry := by
  intro s hr hb
  rw [exec_stwrite_of_free hr hb]
  refine ⟨fun h => ?_, fun i hi h0 hF => ?_, s.listed_iff⟩
  · by_cases hge : 16 ≤ s.arg[0].toNat
    · rw [State.stwriteBody_of_ge hge]
    · rw [State.stwriteBody_of_index (i := ⟨s.arg[0].toNat, Nat.not_le.mp hge⟩) rfl,
        if_pos (h.resolve_left hge)]
  · rw [State.stwriteBody_of_index hi, if_neg (not_or.mpr ⟨h0, hF⟩)]
    rfl

end Sys2Proof.Machine

/-!
PROOFS. A command that is refused reports its code and changes nothing else (R183): strobe by strobe,
each way through the body either refuses the part as it was or completes with OK.
-/
namespace Sys2Proof.Machine

/-- The command whose outcome is `t` has not been refused, or has changed CMD_STATUS and CMD_DONE
alone. -/
def State.OnlyReports (s t : State) : Prop :=
  t.cmdStatus ≠ .ok → t.cmdStatus ≠ .inProg → t = s.completed t.cmdStatus

namespace State.OnlyReports
variable {s : State}

theorem done (s : State) (k : StatusCode) : s.OnlyReports (s.done k) := fun _ _ => rfl

theorem of_ok {t : State} (h : t.cmdStatus = .ok) : s.OnlyReports t := fun hne => absurd h hne

theorem of_inProg {t : State} (h : t.cmdStatus = .inProg) : s.OnlyReports t :=
  fun _ hne => absurd h hne

/-- A refusal stops no channel where none stands in STOPPING with nothing left to wait for. -/
theorem settle_done (hs : s.Settled) (k : StatusCode) : s.OnlyReports (s.done k).settle := by
  rw [State.settle_of_settled (s := s.done k) hs]
  exact done s k

theorem allocPages (hs : s.Settled) (n : Nat) : s.OnlyReports (s.allocPages n).settle := by
  unfold State.allocPages
  split
  · split
    · exact settle_done hs .noRoom
    · exact of_ok (by simp)
  · exact settle_done hs .noRoom

theorem allocBody (hno : s.NoRequests) (hs : s.Settled) : s.OnlyReports s.allocBody := by
  have hserve : s.serveAll = s := by
    rw [State.serveAll, State.serveOne_of_none hno, State.serveOne_of_none hno,
      State.serveOne_of_none hno, State.serveOne_of_none hno]
  unfold State.allocBody
  dsimp only
  split
  · exact done s .badArg
  · rw [hserve]
    exact allocPages hs _

theorem releaseBody (s : State) : s.OnlyReports s.releaseBody := by
  unfold State.releaseBody
  dsimp only
  split
  · exact of_ok (by simp)
  · exact done s .badChain

theorem seekBody (s : State) : s.OnlyReports s.seekBody := by
  unfold State.seekBody
  dsimp only
  split
  · exact done s .badChain
  · split
    · exact done s .badArg
    · exact of_ok (by simp)

theorem takeBody (s : State) : s.OnlyReports s.takeBody := by
  unfold State.takeBody
  split
  · exact done s .empty
  · exact of_ok (by simp)

theorem submitBody (s : State) : s.OnlyReports s.submitBody := by
  unfold State.submitBody
  dsimp only
  split
  · exact done s .badChain
  · split
    · exact done s .check
    · split
      · exact done s .badArg
      · next c _ =>
        split
        · exact done s .badArg
        · split
          · exact done s .badLen
          · split
            · exact done s .qFull
            · exact of_ok (s.submitAccept_cmdStatus c)

theorem cancelBody (s : State) : s.OnlyReports s.cancelBody := by
  unfold State.cancelBody
  dsimp only
  split
  · exact done s .badArg
  · split
    · exact of_ok (by simp)
    · split
      · exact done s .active
      · exact done s .notFound

theorem flushBody (s : State) : s.OnlyReports s.flushBody := by
  unfold State.flushBody
  dsimp only
  split
  · exact done s .badArg
  · exact of_ok (by simp)

theorem popdoneBody (s : State) : s.OnlyReports s.popdoneBody := by
  unfold State.popdoneBody
  split
  · exact done s .empty
  · exact of_ok (by simp)

theorem enableBody (s : State) : s.OnlyReports s.enableBody := by
  unfold State.enableBody
  split
  · exact done s .badArg
  · split
    · exact of_ok (by simp)
    · exact done s .state

theorem disableBody (s : State) : s.OnlyReports s.disableBody := by
  unfold State.disableBody
  split
  · exact done s .badArg
  · split
    · exact of_ok (by simp)
    · exact done s .state

theorem abortBody (s : State) : s.OnlyReports s.abortBody := by
  unfold State.abortBody
  dsimp only
  split
  · exact done s .badArg
  · split
    · split
      · exact of_ok (by simp [State.abortFinish_eq])
      · exact of_inProg (by simp)
    · exact done s .ok

theorem clearseqBody (s : State) : s.OnlyReports s.clearseqBody := of_ok rfl

theorem stwriteBody (s : State) : s.OnlyReports s.stwriteBody := by
  unfold State.stwriteBody
  split
  · exact done s .badArg
  · split
    · exact done s .badArg
    · exact of_ok rfl

theorem streadBody (s : State) : s.OnlyReports s.streadBody := by
  unfold State.streadBody
  split
  · exact done s .badArg
  · exact of_ok rfl

theorem counterBody (s : State) : s.OnlyReports s.counterBody := by
  unfold State.counterBody
  split
  · exact of_ok rfl
  · exact done s .badArg

theorem srstBody (s : State) : s.OnlyReports s.srstBody := of_ok rfl

/-- Each of the sixteen strobes. -/
theorem strobeBody {i : Instr} (hi : i ∈ strobes) (hno : s.NoRequests) (hs : s.Settled) :
    s.OnlyReports (strobeBody i s) := by
  cases i with
  | alloc => exact allocBody hno hs
  | release => exact releaseBody s
  | seek => exact seekBody s
  | take => exact takeBody s
  | submit => exact submitBody s
  | cancel => exact cancelBody s
  | flush => exact flushBody s
  | popdone => exact popdoneBody s
  | enable => exact enableBody s
  | disable => exact disableBody s
  | abort => exact abortBody s
  | clearseq => exact clearseqBody s
  | stwrite => exact stwriteBody s
  | stread => exact streadBody s
  | counter => exact counterBody s
  | srst => exact srstBody s
  | _ => simp [strobes] at hi

end State.OnlyReports

/-- Settles O7, strobe by strobe. -/
theorem refusedCommandOnlyReportsItsCode : Obligations.RefusedCommandOnlyReportsItsCode := by
  intro s i hr hb hno hs hi
  exact ⟨strobeBody i s, exec_strobe_of_free hi hr hb, State.OnlyReports.strobeBody hi hno hs⟩

end Sys2Proof.Machine

/-!
PROOFS. Time: the event of an empty queue (R2, R16), what a sample tick does to a channel (R2 to R5,
R126), and what the lines show (R1).
-/
namespace Sys2Proof.Machine

/-! ### Events that are due -/

theorem Channel.responseReady_iff (ch : Channel) :
    ch.responseReady = true ↔
      (ch.mode = .run ∨ ch.mode = .stopping) ∧ ch.lineTx = .quiet ∧ ch.response.isSome = true := by
  simp only [Channel.responseReady, Channel.inService, Bool.and_eq_true, Bool.or_eq_true, beq_iff_eq,
    and_assoc]

theorem Channel.flowReady_iff (ch : Channel) :
    ch.flowReady = true ↔
      (ch.mode = .run ∨ ch.mode = .stopping) ∧ ch.lineTx = .quiet ∧ ch.response = none ∧
        (∃ g, ch.flow = some g ∧ g.phase = .waiting) ∧ ch.engine.parser = .hunt ∧
        ch.idleRunning = true := by
  simp only [Channel.flowReady, Channel.inService, Bool.and_eq_true, Bool.or_eq_true, beq_iff_eq,
    Option.isNone_iff_eq_none, Channel.flowWaiting_iff, and_assoc]

theorem Channel.dataReady_iff (ch : Channel) :
    ch.dataReady = true ↔
      ch.lineTx = .quiet ∧ ch.response = none ∧ (∀ g, ch.flow = some g → g.phase ≠ .waiting) ∧
        ch.engine.parser = .hunt ∧ ch.idleRunning = true ∧ ch.holdTimer = none ∧
        ch.sequencer.state = .defer ∧
        ∃ e es, ch.txq = e :: es ∧ (ch.mode = .run ∨ (ch.mode = .stopping ∧ e.active = true)) := by
  have hflow : ch.flowWaiting = false ↔ ∀ g, ch.flow = some g → g.phase ≠ .waiting := by
    rw [← Bool.not_eq_true, Channel.flowWaiting_iff]
    simp
  have hhead : (ch.txq.isEmpty = false ∧ (ch.mode = .run ∨ (ch.mode = .stopping ∧ ch.headActive = true))) ↔
      ∃ e es, ch.txq = e :: es ∧ (ch.mode = .run ∨ (ch.mode = .stopping ∧ e.active = true)) := by
    cases hq : ch.txq <;> simp [Channel.headActive, hq]
  rw [← hflow, ← hhead]
  simp only [Channel.dataReady, Bool.and_eq_true, Bool.or_eq_true, beq_iff_eq, Bool.not_eq_true',
    Option.isNone_iff_eq_none, and_assoc]

section
variable {s : State} {c : Chan}

/-- Each row of the table of due events is due where its condition holds. -/
theorem State.due_of_dueTable (hm : (s.chan c).mode ≠ .off) :
    ∀ x ∈ (s.chan c).dueTable c, x.1 = true → s.Due x.2 := by
  simp only [Channel.dueTable, List.forall_mem_cons, List.not_mem_nil, false_implies, implies_true,
    and_true, Bool.and_eq_true, beq_iff_eq, decide_eq_true_eq]
  refine ⟨fun h => ?_, fun h => ?_, fun h => ?_, fun h => (Channel.faultDue_iff _).mp h, ?_, ?_,
    fun h => ⟨hm, (Channel.readbackMissed_iff _).mp h⟩, fun h => ⟨hm, (Channel.endedWith_iff _ _).mp h⟩,
    fun h => ⟨hm, (Channel.endedWith_iff _ _).mp h⟩, fun h => (Channel.abortDue_iff _).mp h,
    fun h => ⟨hm, h⟩, fun h => ⟨hm, h⟩, fun h => ⟨hm, h⟩, fun h => ⟨hm, h⟩, fun h => ⟨hm, h⟩,
    fun h => ⟨hm, (Channel.flowBackoffDue_iff _).mp h⟩, ?_, ?_, ?_⟩
  · exact ⟨hm, (Channel.startDue_iff _).mp h⟩
  · obtain ⟨hrx, hticks⟩ := (Channel.characterDue_iff _).mp h
    unfold Channel.characterEvent
    cases hl : (s.chan c).lineTx with
    | quiet => exact ⟨hm, hrx, hticks, hl, rfl⟩
    | sending f => exact ⟨hm, hrx, hticks, by rw [hl]; exact nofun, rfl⟩
  · exact ⟨hm, (Channel.highDue_iff _).mp h⟩
  · rintro ⟨hgap, hp⟩
    obtain ⟨hserve, hidle, hlt⟩ := (Channel.gapPassed_iff _).mp hgap
    exact ⟨hserve, hidle, hp, hlt⟩
  · rintro ⟨hgap, hp⟩
    obtain ⟨hserve, hidle, hlt⟩ := (Channel.gapPassed_iff _).mp hgap
    exact ⟨hserve, hidle, hp, hlt⟩
  · rintro ⟨hready, hgap⟩
    obtain ⟨hserve, hl, -⟩ := (Channel.responseReady_iff _).mp hready
    exact ⟨hserve, hl, (Channel.gapOver_iff _).mp hgap⟩
  · rintro ⟨hready, hidle⟩
    obtain ⟨hserve, hl, hr, hf, hp, hrun⟩ := (Channel.flowReady_iff _).mp hready
    exact ⟨hserve, hl, hr, hf, hp, hrun, hidle⟩
  · rintro ⟨hready, hidle⟩
    obtain ⟨hl, hr, hf, hp, hrun, ht, hst, hq⟩ := (Channel.dataReady_iff _).mp hready
    exact ⟨hl, hr, hf, hp, hrun, ht, hst, hq, hidle⟩

theorem Channel.ne_off_of_inService {ch : Channel} (h : ch.mode = .run ∨ ch.mode = .stopping) :
    ch.mode ≠ .off := by
  rcases h with h | h <;> rw [h] <;> exact nofun

/-- The event `i` of channel c stands in the table with its condition true. -/
def State.Listed (s : State) (c : Chan) (i : Instr) : Prop :=
  (s.chan c).mode ≠ .off ∧ (true, i) ∈ (s.chan c).dueTable c

theorem State.due_ne_none_of_listed {i : Instr} (h : s.Listed c i) : (s.chan c).due c ≠ none := by
  obtain ⟨hm, hmem⟩ := h
  rw [Channel.due, if_neg hm]
  simp only [ne_eq, Option.map_eq_none_iff, List.find?_eq_none, Classical.not_forall]
  exact ⟨_, hmem, by simp⟩

end

/-- What is due is the release of RESET#, a waiting receive request, or stands in the table of its
channel. -/
theorem State.listed_of_due {s : State} {i : Instr} (h : s.Due i) :
    s.releaseDue = true ∨ (∃ c, (s.chan c).engine.request ≠ none) ∨ ∃ c, s.Listed c i := by
  have row : ∀ (c : Chan) (b : Bool), (s.chan c).mode ≠ .off → b = true →
      (b, i) ∈ (s.chan c).dueTable c →
        s.releaseDue = true ∨ (∃ c, (s.chan c).engine.request ≠ none) ∨ ∃ c, s.Listed c i :=
    fun c b hm hb hmem => .inr (.inr ⟨c, hm, hb ▸ hmem⟩)
  cases i with
  | pinReset =>
    obtain ⟨hr, hin⟩ := h
    exact .inl (by simp [State.releaseDue, hr, hin])
  | receiveRequestServed => exact .inr (.inl h)
  | startBitDetected c =>
    exact row c _ h.1 ((Channel.startDue_iff _).mpr h.2) (by simp [Channel.dueTable])
  | characterReceived c x =>
    obtain ⟨hm, hrx, ht, hl, rfl⟩ := h
    refine row c _ hm ((Channel.characterDue_iff _).mpr ⟨hrx, ht⟩) ?_
    simp [Channel.dueTable, Channel.characterEvent, hl, Channel.assembled]
  | readbackCharacter c x =>
    obtain ⟨hm, hrx, ht, hl, rfl⟩ := h
    refine row c _ hm ((Channel.characterDue_iff _).mpr ⟨hrx, ht⟩) ?_
    cases hl' : (s.chan c).lineTx with
    | quiet => exact absurd hl' hl
    | sending f => simp [Channel.dueTable, Channel.characterEvent, hl', Channel.assembled]
  | lineSampledHigh c =>
    exact row c _ h.1 ((Channel.highDue_iff _).mpr h.2) (by simp [Channel.dueTable])
  | lineFault c =>
    exact row c _ h.1 ((Channel.faultDue_iff _).mpr h) (by simp [Channel.dueTable])
  | gapExpiry c =>
    obtain ⟨hs, hidle, hp, hlt⟩ := h
    have hgap := (Channel.gapPassed_iff _).mpr ⟨hs, hidle, hlt⟩
    exact row c ((s.chan c).gapPassed && (s.chan c).engine.parser.inFlight)
      (Channel.ne_off_of_inService hs) (by simp [hgap, hp]) (by simp [Channel.dueTable])
  | skipGapExit c =>
    obtain ⟨hs, hidle, hp, hlt⟩ := h
    have hgap := (Channel.gapPassed_iff _).mpr ⟨hs, hidle, hlt⟩
    exact row c ((s.chan c).gapPassed && (s.chan c).engine.parser == .skip)
      (Channel.ne_off_of_inService hs) (by simp [hgap, hp]) (by simp [Channel.dueTable])
  | missingReadback c =>
    exact row c _ h.1 ((Channel.readbackMissed_iff _).mpr h.2)
      (by simp [Channel.dueTable])
  | lineTransmitterQuiet c =>
    exact row c _ h.1 ((Channel.endedWith_iff _ _).mpr h.2) (by simp [Channel.dueTable])
  | collisionReported c =>
    exact row c _ h.1 ((Channel.endedWith_iff _ _).mpr h.2) (by simp [Channel.dueTable])
  | abortComplete c =>
    exact row c _ (by rw [h.1]; exact nofun) ((Channel.abortDue_iff _).mpr h)
      (by simp [Channel.dueTable])
  | holdTimerExpiry c =>
    obtain ⟨hm, ht⟩ := h
    exact row c ((s.chan c).holdTimer == some 0) hm (by simp [ht])
      (by simp [Channel.dueTable])
  | refreshExpiry c =>
    obtain ⟨hm, ht⟩ := h
    exact row c ((s.chan c).refresh == some 0) hm (by simp [ht])
      (by simp [Channel.dueTable])
  | backoffExpiry c =>
    obtain ⟨hm, hst, ht⟩ := h
    exact row c
      ((s.chan c).sequencer.state == .backoff && (s.chan c).sequencer.timer == some 0) hm
      (by simp [hst, ht]) (by simp [Channel.dueTable])
  | txAckTimeouts c =>
    obtain ⟨hm, hst, ht⟩ := h
    exact row c
      ((s.chan c).sequencer.state == .awaitAck && (s.chan c).sequencer.timer == some 0) hm
      (by simp [hst, ht]) (by simp [Channel.dueTable])
  | busyExpiry c =>
    obtain ⟨hm, hst, ht⟩ := h
    exact row c
      ((s.chan c).sequencer.state == .busyWait && (s.chan c).sequencer.timer == some 0) hm
      (by simp [hst, ht]) (by simp [Channel.dueTable])
  | flowBackoffExpiry c =>
    exact row c _ h.1 ((Channel.flowBackoffDue_iff _).mpr h.2)
      (by simp [Channel.dueTable])
  | responseStart c =>
    obtain ⟨hs, hl, hgap⟩ := h
    have hover := (Channel.gapOver_iff _).mpr hgap
    obtain ⟨r, hr, -⟩ := hgap
    have hready := (Channel.responseReady_iff _).mpr ⟨hs, hl, by simp [hr]⟩
    exact row c ((s.chan c).responseReady && (s.chan c).gapOver)
      (Channel.ne_off_of_inService hs) (by simp [hready, hover]) (by simp [Channel.dueTable])
  | flowFrameStart c =>
    obtain ⟨hs, hl, hr, hf, hp, hrun, hidle⟩ := h
    have hready := (Channel.flowReady_iff _).mpr ⟨hs, hl, hr, hf, hp, hrun⟩
    exact row c
      ((s.chan c).flowReady && Decidable.decide ((s.chan c).spacingBits ≤ (s.chan c).idle))
      (Channel.ne_off_of_inService hs) (by rw [hready]; exact decide_eq_true hidle) (by simp [Channel.dueTable])
  | attemptStart c =>
    obtain ⟨hl, hr, hf, hp, hrun, ht, hst, hq, hidle⟩ := h
    have hready := (Channel.dataReady_iff _).mpr ⟨hl, hr, hf, hp, hrun, ht, hst, hq⟩
    obtain ⟨e, es, -, hm⟩ := hq
    have hoff : (s.chan c).mode ≠ .off :=
      Channel.ne_off_of_inService (hm.imp_right And.left)
    exact row c
      ((s.chan c).dataReady && Decidable.decide ((s.chan c).spacingBits ≤ (s.chan c).idle)) hoff
      (by rw [hready]; exact decide_eq_true hidle) (by simp [Channel.dueTable])
  | _ => exact absurd h id

theorem State.request_any_iff (s : State) :
    (s.chans.any fun ch => ch.engine.request.isSome) = true ↔
      ∃ c, (s.chan c).engine.request ≠ none := by
  simp only [Quad.any_iff, Option.isSome_iff_ne_none]
  rfl

/-- The event a channel takes is due. -/
theorem State.due_of_channel_due {s : State} {c : Chan} {i : Instr} (h : (s.chan c).due c = some i) :
    s.Due i := by
  unfold Channel.due at h
  split at h
  · cases h
  · next hm =>
    obtain ⟨x, hx, rfl⟩ := Option.map_eq_some_iff.mp h
    exact State.due_of_dueTable hm x (List.mem_of_find?_eq_some hx) (List.find?_some hx)

theorem State.due_of_dueEvent {s : State} {i : Instr} (h : s.dueEvent = some i) : s.Due i := by
  unfold State.dueEvent at h
  split at h
  · next hrel =>
    cases h
    simpa [State.releaseDue, State.Due] using hrel
  · split at h
    · next hreq =>
      cases h
      exact s.request_any_iff.mp hreq
    · obtain ⟨c, -, hc⟩ := List.exists_of_findSome?_eq_some h
      exact State.due_of_channel_due hc

theorem State.not_due_of_dueEvent_none {s : State} (h : s.dueEvent = none) (i : Instr) : ¬ s.Due i := by
  intro hdue
  unfold State.dueEvent at h
  split at h
  · cases h
  · next hrel =>
    split at h
    · cases h
    · next hreq =>
      rcases State.listed_of_due hdue with hr | hc | ⟨c, hc⟩
      · exact hrel hr
      · exact hreq (s.request_any_iff.mpr hc)
      · refine State.due_ne_none_of_listed hc (List.findSome?_eq_none_iff.mp h c ?_)
        match c with
        | 0 | 1 | 2 | 3 => simp

/-! ### The step of an empty queue -/

theorem State.clockChan_of_silent {s : State} (h : s.rxdIn = []) (c : Chan) :
    s.clockChan c = { s.chan c with rxd := s.txd c }.clock := by
  simp only [State.clockChan, State.rxdNext, h]

theorem State.clockChan_of_levels {s : State} {w : BitVec 4} {ws : List (BitVec 4)}
    (h : s.rxdIn = w :: ws) (c : Chan) :
    s.clockChan c = { s.chan c with rxd := w.getLsbD c.val }.clock := by
  simp only [State.clockChan, State.rxdNext, h]

/-- Settles O2: the step by whether an event is due, and the table of due events row by row. -/
theorem emptyQueueRunsTheDueEventOrTheClock : Obligations.EmptyQueueRunsTheDueEventOrTheClock := by
  refine ⟨fun s hq => ⟨fun i hi => ?_, fun hnone => ?_⟩,
    fun s => ⟨fun i => State.due_of_dueEvent, State.not_due_of_dueEvent_none⟩⟩
  · rw [step, hq, hi]
  · refine ⟨s.advance, by rw [step, hq, hnone], rfl, ?_, fun c => ⟨fun hin => ?_, fun w ws hin => ?_⟩⟩
    · simp [State.advance, State.resetNext]
    · rw [State.chan_advance, State.clockChan_of_silent hin]
    · rw [State.chan_advance, State.clockChan_of_levels hin]

end Sys2Proof.Machine

/-!
PROOFS. The clock of a channel (R2 to R5, R126), the lines (R1), the formats (R7, R9, R20) and the laws
of the part after pin reset.
-/
namespace Sys2Proof.Machine

/-! ### A sample tick, part by part -/

section
variable (ch : Channel)

theorem Channel.sampleTick_rx : ch.sampleTick.rx = ch.tickReceiver.rx := by
  rw [Channel.sampleTick_eq]

theorem Channel.sampleTick_rxTicks : ch.sampleTick.rxTicks = ch.tickReceiver.rxTicks := by
  rw [Channel.sampleTick_eq]

theorem Channel.sampleTick_rxBits : ch.sampleTick.rxBits = ch.tickReceiver.rxBits := by
  rw [Channel.sampleTick_eq]

theorem Channel.sampleTick_lowPeriod : ch.sampleTick.lowPeriod = ch.lowSampled := by
  rw [Channel.sampleTick_eq]

theorem Channel.sampleTick_idle : ch.sampleTick.idle = ch.tickIdle.idle := by
  rw [Channel.sampleTick_eq]

theorem Channel.sampleTick_idlePhase : ch.sampleTick.idlePhase = ch.tickIdle.idlePhase := by
  rw [Channel.sampleTick_eq]

theorem Channel.sampleTick_lineTx : ch.sampleTick.lineTx = ch.tickLine.lineTx := by
  rw [Channel.sampleTick_eq]

end

section
variable {ch : Channel}

/-! ### The receiver -/

theorem Channel.tickReceiver_of_looking (h : ch.rx = .looking) :
    ch.tickReceiver = if ch.rxd then ch else { ch with rx := .candidate, rxTicks := 0 } := by
  simp only [Channel.tickReceiver, h]

theorem Channel.tickReceiver_of_candidate (h : ch.rx = .candidate) :
    ch.tickReceiver =
      if ch.rxTicks < 7 ∨ ch.rxd = false then { ch with rxTicks := ch.rxTicks + 1 }
      else { ch with rx := .looking, rxTicks := 0 } := by
  have hlt : ch.rxTicks + 1 < startSample ↔ ch.rxTicks < 7 := Nat.succ_lt_succ_iff
  simp only [Channel.tickReceiver, h, hlt]

theorem Channel.tickReceiver_of_inCharacter (h : ch.rx = .inCharacter) :
    ch.tickReceiver =
      { ch with
        rxTicks := ch.rxTicks + 1
        rxBits :=
          if isBitSample (ch.rxTicks + 1) then BitVec.ofBool ch.rxd ++ ch.rxBits.extractLsb' 1 8
          else ch.rxBits } := by
  simp only [Channel.tickReceiver, h]

theorem Channel.tickReceiver_of_waitHigh (h : ch.rx = .waitHigh) : ch.tickReceiver = ch := by
  simp only [Channel.tickReceiver, h]

/-- The latest sample comes in at bit 8, and the ones before it move down (R3). -/
theorem getLsbD_shifted_in (b : Bool) (r : BitVec 9) :
    (BitVec.ofBool b ++ r.extractLsb' 1 8 : BitVec 9).getLsbD 8 = b ∧
      ∀ j < 8, (BitVec.ofBool b ++ r.extractLsb' 1 8 : BitVec 9).getLsbD j = r.getLsbD (j + 1) := by
  have happ : ∀ j, (BitVec.ofBool b ++ r.extractLsb' 1 8 : BitVec 9).getLsbD j =
      if j < 8 then (r.extractLsb' 1 8).getLsbD j else (BitVec.ofBool b).getLsbD (j - 8) :=
    fun j => BitVec.getLsbD_append
  refine ⟨by simp only [happ]; simp, fun j hj => ?_⟩
  rw [happ, if_pos hj, BitVec.getLsbD_extractLsb', Nat.add_comm 1 j]
  simp [hj]

/-- A data or marker bit is sampled in the middle of its cell. -/
theorem Channel.sampleTick_bit {i : Nat} (hi : i < 9) (h : ch.rx = .inCharacter)
    (ht : ch.sampleTick.rxTicks = 16 * (i + 1) + 8) :
    ch.sampleTick.rxBits.getLsbD 8 = ch.rxd ∧
      ∀ j < 8, ch.sampleTick.rxBits.getLsbD j = ch.rxBits.getLsbD (j + 1) := by
  rw [Channel.sampleTick_rxTicks, Channel.tickReceiver_of_inCharacter h] at ht
  have hsample : isBitSample (ch.rxTicks + 1) = true := by
    rw [isBitSample_iff]
    dsimp only at ht
    omega
  rw [Channel.sampleTick_rxBits, Channel.tickReceiver_of_inCharacter h]
  dsimp only
  rw [if_pos hsample]
  exact getLsbD_shifted_in _ _

/-- Outside the middles of the bits' cells no bit is sampled. -/
theorem Channel.sampleTick_no_bit (h : ∀ i < 9, ch.sampleTick.rxTicks ≠ 16 * (i + 1) + 8)
    (h8 : ch.sampleTick.rxTicks ≠ 8) : ch.sampleTick.rxBits = ch.rxBits := by
  rw [Channel.sampleTick_rxBits]
  rw [Channel.sampleTick_rxTicks] at h8
  simp only [Channel.sampleTick_rxTicks] at h
  cases hrx : ch.rx with
  | looking => rw [Channel.tickReceiver_of_looking hrx]; split <;> rfl
  | candidate => rw [Channel.tickReceiver_of_candidate hrx]; split <;> rfl
  | waitHigh => rw [Channel.tickReceiver_of_waitHigh hrx]
  | inCharacter =>
    rw [Channel.tickReceiver_of_inCharacter hrx] at h h8 ⊢
    dsimp only at h h8 ⊢
    refine if_neg fun hs => ?_
    obtain ⟨hmod, hlt⟩ := (isBitSample_iff _).mp hs
    refine h ((ch.rxTicks + 1) / 16 - 1) (by omega) (by omega)

/-! ### Line idle time and the line transmitter -/

theorem Channel.tickIdle_of_held (h : ch.idleRunning = false) : ch.tickIdle = ch := by
  simp [Channel.tickIdle, h]

theorem Channel.tickIdle_of_running (h : ch.idleRunning = true) :
    ch.tickIdle =
      if ch.idlePhase < 15 then { ch with idlePhase := ch.idlePhase + 1 }
      else { ch with idlePhase := 0, idle := min 1023 (ch.idle + 1) } := by
  have hlt : ch.idlePhase + 1 < Config.ticksPerBit ↔ ch.idlePhase < 15 := Nat.succ_lt_succ_iff
  simp only [Channel.tickIdle, h, if_true, hlt]
  rfl

theorem Channel.lastCharacter_iff (f : Sending) :
    ch.lastCharacter f = true ↔
      f.verdict ≠ .pending ∨ ch.mode = .aborting ∨ f.chars.length ≤ f.index + 1 := by
  simp only [Channel.lastCharacter, Bool.or_eq_true, bne_iff_ne, beq_iff_eq, decide_eq_true_eq,
    or_assoc]

theorem Channel.tickLine_of_sending {f : Sending} (h : ch.lineTx = .sending f) :
    ch.tickLine =
      if f.ticks + 1 < ch.charTicks then
        { ch with lineTx := .sending { f with ticks := f.ticks + 1 } }
      else if ch.lastCharacter f then
        { ch with lineTx := .sending { f with ticks := ch.charTicks } }
      else { ch with lineTx := .sending { f with index := f.index + 1, ticks := 0, readBack := false } } := by
  simp only [Channel.tickLine, h]

theorem Channel.tickLine_of_quiet (h : ch.lineTx = .quiet) : ch.tickLine = ch := by
  simp only [Channel.tickLine, h]

/-! ### The lines -/

theorem Channel.txd_of_sending {f : Sending} {b : Byte} (h : ch.lineTx = .sending f)
    (hb : f.chars[f.index]? = some b) :
    ch.txd = cellLevel b (f.index == 0) (f.ticks / 16) := by
  simp only [Channel.txd, h, hb]
  rfl

end

/-- Settles O60: the clock by the prescaler, each part of a sample tick by its own lemma, and the cells
of a character. -/
theorem sampleTicksMoveTheChannel : Obligations.SampleTicksMoveTheChannel := by
  refine ⟨fun ch => ⟨fun hm => ?_, fun hm hlt => ?_, fun hm hle => ?_⟩, ?_, fun ch => ⟨fun hl => ?_, ?_⟩,
    fun s c hr => ?_⟩
  · rw [Channel.clock, if_pos hm]
  · rw [Channel.clock, if_neg hm, if_pos hlt]
  · rw [Channel.clock, if_neg hm, if_neg (Nat.not_lt.mpr hle)]
  · rintro ch _ rfl
    refine ⟨by rw [ch.sampleTick_eq], ⟨fun h hd => ?_, fun h hd => ?_, fun h ht => ?_, fun h ht hd => ?_,
      fun h ht hd => ?_, fun h => ?_, fun i => Channel.sampleTick_bit, Channel.sampleTick_no_bit,
      fun h => ?_⟩, ⟨fun hd => ?_, fun hd hl => ?_, fun l hd hl => ?_⟩,
      ⟨fun h => ?_, fun h hlt => ?_, fun h hle => ?_⟩, fun hl => ?_, ?_⟩
    · rw [ch.sampleTick_rx, Channel.tickReceiver_of_looking h, if_pos hd, h]
    · rw [ch.sampleTick_rx, ch.sampleTick_rxTicks, Channel.tickReceiver_of_looking h,
        if_neg (by simp [hd])]
      exact ⟨rfl, rfl⟩
    · rw [ch.sampleTick_rx, ch.sampleTick_rxTicks, Channel.tickReceiver_of_candidate h,
        if_pos (.inl ht)]
      exact ⟨h, rfl⟩
    · rw [ch.sampleTick_rx, Channel.tickReceiver_of_candidate h, if_neg (by simp [ht, hd])]
    · rw [ch.sampleTick_rx, ch.sampleTick_rxTicks, Channel.tickReceiver_of_candidate h,
        if_pos (.inr hd)]
      exact ⟨h, congrArg (· + 1) ht⟩
    · rw [ch.sampleTick_rx, ch.sampleTick_rxTicks, Channel.tickReceiver_of_inCharacter h]
      exact ⟨h, rfl⟩
    · rw [ch.sampleTick_rx, Channel.tickReceiver_of_waitHigh h, h]
    · simp only [ch.sampleTick_lowPeriod, Channel.lowSampled, hd]
    · simp only [ch.sampleTick_lowPeriod, Channel.lowSampled, hd, hl]
    · simp only [ch.sampleTick_lowPeriod, Channel.lowSampled, hd, hl]
    · rw [ch.sampleTick_idle, ch.sampleTick_idlePhase, Channel.tickIdle_of_held h]
      exact ⟨rfl, rfl⟩
    · rw [ch.sampleTick_idle, ch.sampleTick_idlePhase, Channel.tickIdle_of_running h, if_pos hlt]
      exact ⟨rfl, rfl⟩
    · rw [ch.sampleTick_idle, ch.sampleTick_idlePhase, Channel.tickIdle_of_running h,
        if_neg (Nat.not_lt.mpr hle)]
      exact ⟨rfl, rfl⟩
    · rw [ch.sampleTick_lineTx, Channel.tickLine_of_quiet hl, hl]
    · rintro f _ hl rfl
      rw [ch.sampleTick_lineTx, Channel.tickLine_of_sending hl, ch.charTicks_eq]
      refine ⟨fun hlt => ?_, fun hle hv hm hi => ?_, fun hle hlast => ?_⟩
      · rw [if_pos hlt]
      · rw [if_neg (Nat.not_lt.mpr hle), if_neg]
        rw [Channel.lastCharacter_iff]
        rintro (h | h | h)
        · exact h hv
        · exact hm h
        · omega
      · rw [if_neg (Nat.not_lt.mpr hle), if_pos ((Channel.lastCharacter_iff f).mpr hlast)]
  · simp only [Channel.de, Channel.txd, hl, and_self]
  · rintro f b _ hl hb rfl
    rw [Channel.txd_of_sending hl hb, cellLevel]
    refine ⟨by simp only [Channel.de, hl], fun h0 => if_pos h0, fun h1 h8 => ?_, fun h9 => ?_,
      fun h10 => ?_⟩
    · rw [if_neg (by omega), if_pos h8]
    · rw [if_neg (by omega), if_neg (by omega), if_pos h9]
    · rw [if_neg (by omega), if_neg (by omega), if_neg (by omega)]
  · simp [State.de, State.txd, hr]

/-! ### Formats -/

/-- A step of the check register by whether the feedback differs from the data bit (R9). -/
theorem crcBit_eq (r : Half) (b : Bool) :
    crcBit r b = if r.getLsbD 15 = b then r <<< 1 else (r <<< 1) ^^^ 0x1021 := by
  unfold crcBit
  by_cases h : r.getLsbD 15 = b
  · rw [if_pos h, if_neg (by simpa using h)]
  · rw [if_neg h, if_pos (by simpa using h)]

theorem crc_append (bytes more : List Byte) : crc (bytes ++ more) = more.foldl crcByte (crc bytes) :=
  List.foldl_append

/-- A bit equal to the feedback shifts the register alone: the high byte of a value fed back into its
register, bit by bit. -/
theorem crcBit_shifted (r : Half) {k : Nat} (hk : k < 8) :
    crcBit (r <<< k) ((hiByte r).getLsbD (7 - k)) = r <<< (k + 1) := by
  have hbit : (r <<< k).getLsbD 15 = (hiByte r).getLsbD (7 - k) := by
    simp only [hiByte, BitVec.getLsbD_shiftLeft, BitVec.getLsbD_extractLsb']
    simp [show ¬ 15 < k by omega, show 7 - k < 8 by omega, show 8 + (7 - k) = 15 - k by omega]
  rw [crcBit_eq, if_pos hbit, BitVec.shiftLeft_add]

/-- A register fed its own high byte moves its low byte up (R9). -/
theorem crcByte_hiByte (r : Half) : crcByte r (hiByte r) = r <<< 8 := by
  have step := fun k (hk : k < 8) => crcBit_shifted r hk
  have h0 : crcBit r ((hiByte r).getLsbD 7) = r <<< 1 := by simpa using step 0 (by omega)
  simp only [crcByte, List.foldl_cons, List.foldl_nil, h0, step 1 (by omega), step 2 (by omega),
    step 3 (by omega), step 4 (by omega), step 5 (by omega), step 6 (by omega), step 7 (by omega)]

/-- The check of a frame with its CHECK characters is 0 (R9). -/
theorem crc_withCheck (bytes : List Byte) : crc (withCheck bytes) = 0 := by
  have hlo : loByte (crc bytes) = hiByte (crc bytes <<< 8) := by
    refine BitVec.eq_of_getLsbD_eq fun i hi => ?_
    simp only [loByte, hiByte, BitVec.getLsbD_extractLsb', BitVec.getLsbD_shiftLeft]
    simp [hi, show 8 + i < 16 by omega]
  rw [withCheck, crc_append, List.foldl_cons, List.foldl_cons, List.foldl_nil, crcByte_hiByte, hlo,
    crcByte_hiByte, ← BitVec.shiftLeft_add]
  exact BitVec.shiftLeft_eq_zero (by decide)

theorem packCtrl_fields (k : Kind) (ar : Bool) (q : BitVec 3) :
    ctrlKind (packCtrl k ar q) = k ∧ ctrlAr (packCtrl k ar q) = ar ∧
      ctrlSeq (packCtrl k ar q) = q ∧ ctrlReserved (packCtrl k ar q) = false := by
  revert ar q
  cases k <;> decide

theorem pagesFor_of_long {l : Nat} (h : 57 ≤ l) : pagesFor l = 1 + (l - 56 + 63) / 64 :=
  if_neg (by omega)

/-- Settles O54: the check by its steps and by the bytes fed back; CTRL for each kind; pages(L) by its
formula. -/
theorem framesCarryTheirCheckAndFields : Obligations.FramesCarryTheirCheckAndFields := by
  refine ⟨rfl, fun bytes b => ⟨?_, crc_append bytes [b]⟩, fun bytes => rfl, by decide +kernel,
    crc_withCheck, packCtrl_fields, rfl, rfl, rfl, rfl, rfl, fun l h => if_pos h, fun l h1 h2 => ?_,
    fun l h1 h2 => ?_, fun l h1 h2 => ?_⟩
  · rw [crc_append]
    simp only [List.foldl_cons, List.foldl_nil, crcByte, crcBit_eq]
  · rw [pagesFor_of_long h1]; omega
  · rw [pagesFor_of_long (by omega)]; omega
  · rw [pagesFor_of_long (by omega)]; omega

/-! ### The laws after pin reset -/

theorem State.reset_chan (c : Chan) : State.reset.chan c = Channel.reset := Quad.get_all _ c

theorem Channel.reset_law : Channel.reset.Law := by
  refine ⟨⟨fun _ => rfl, nofun, nofun, fun h => absurd rfl h, fun h => ?_⟩, ⟨nofun, ?_, ?_, nofun, ?_⟩,
    ⟨by decide, by decide, fun _ => by decide⟩, ⟨fun _ => ⟨rfl, rfl, rfl, rfl, rfl, rfl⟩, fun _ => ⟨rfl, rfl⟩, nofun⟩, nofun, nofun,
    nofun, nofun, nofun⟩
  · simp [Channel.reset, Engine.idle] at h
  all_goals decide

theorem State.reset_channelsLaw : State.reset.ChannelsLaw := by
  refine ⟨fun c => ?_, fun c => ?_, fun c => ?_⟩ <;> rw [State.reset_chan]
  · exact Channel.reset_law
  · rfl
  · exact ⟨nofun, nofun⟩

theorem State.reset_record (p : Page) : State.reset.pageTable.record p = PageRecord.free := rfl

theorem freeListReset_mem (p : Page) : p ∈ freeListReset :=
  List.mem_map.mpr ⟨p.toNat, List.mem_range.mpr p.isLt, by simp⟩

theorem State.reset_pagesLaw : State.reset.PagesLaw where
  freeNodup := by
    refine List.Pairwise.map _ (fun x y ⟨hx, hy, hne⟩ h => hne ?_)
      (List.Pairwise.and_mem.mp List.nodup_range)
    have hxy := congrArg BitVec.toNat h
    simp only [List.mem_range] at hx hy
    simpa [Nat.mod_eq_of_lt hx, Nat.mod_eq_of_lt hy] using hxy
  freeIff p := ⟨fun _ => rfl, fun _ => freeListReset_mem p⟩
  freeRecord p _ := rfl
  linkOk p q h := nomatch h
  linkInj p p' q h := nomatch h
  reached p h := absurd rfl h
  ends h hm := nomatch hm
  oneHolder := .nil
  held x hx := nomatch hx
  owned h hm := nomatch hm

/-- Settles O59, law by law. -/
theorem resetKeepsEveryLaw : Obligations.ResetKeepsEveryLaw :=
  ⟨⟨Memory.wf_nil, Sparse.wf_nil⟩,
    ⟨State.reset_limits.rfq, State.reset_limits.tcq, State.reset_limits.seqLength,
      fun c => (State.reset_limits.chans c).1⟩,
    State.reset_limits.seqKeys,
    ⟨State.reset_limits.event, State.reset_limits.eventEn, State.reset_limits.condEn,
      fun c => (State.reset_limits.chans c).2⟩,
    fun c => by rw [State.reset_chan]; simp [Channel.reset, State.reset],
    State.reset_channelsLaw, State.reset_pagesLaw, absurd rfl, nofun, fun _ => ⟨rfl, rfl⟩⟩

end Sys2Proof.Machine

/-!
PROOFS. The receiver (R3 to R5, R84), where a character goes (R28, R46), the class of a DEST (R48), the
end of a frame (R59, R62), and the tables of the receive side (R73 to R80).
-/
namespace Sys2Proof.Machine

/-! ### Start bits, the low period, the return of a high line -/

theorem bitTicks_eq (n : Nat) : bitTicks n = 16 * n := Nat.mul_comm n 16

theorem State.dropResponse_of_none {s : State} {c : Chan} (h : (s.chan c).response = none) :
    s.dropResponse c = s := if_neg (by simp [h])

theorem State.dropResponse_of_some {s : State} {c : Chan} {r : Response}
    (h : (s.chan c).response = some r) :
    s.dropResponse c =
      (s.count c .respDropped).updChan c fun ch => { ch with response := none } :=
  if_pos (by simp [h])

theorem Channel.awaitsStart_iff (ch : Channel) :
    ch.awaitsStart = true ↔ ch.mode ≠ .off ∧ (ch.rx = .looking ∨ ch.rx = .candidate) := by
  simp [Channel.awaitsStart]

theorem exec_startBitDetected (c : Chan) (s : State) :
    exec (.startBitDetected c) s =
      .next (if (s.chan c).awaitsStart then (s.startBit c).settle else s) := rfl

/-- The low period at a start bit: the one measured behind a candidate, else half a bit time (R4). -/
theorem Channel.startLow_eq {ch : Channel} {l : LowPeriod}
    (hnew : ch.rx = .looking ∨ ch.lowPeriod = none → l = ⟨8, false⟩)
    (hold : ch.rx = .candidate → ∀ m, ch.lowPeriod = some m → l = m)
    (hrx : ch.rx = .looking ∨ ch.rx = .candidate) : ch.startLow = l := by
  rcases hrx with h | h
  · rw [hnew (.inl h)]
    simp only [Channel.startLow, h]
    rfl
  · cases hl : ch.lowPeriod with
    | none =>
      rw [hnew (.inr hl)]
      simp only [Channel.startLow, h, hl]
      rfl
    | some m =>
      rw [hold h m hl]
      simp only [Channel.startLow, h, hl]

/-- A channel in which a start bit has been detected, with the low period it begins. -/
def Channel.started (l : LowPeriod) (ch : Channel) : Channel :=
  { ch with
    rx := .inCharacter, rxTicks := 8, rxBits := 0, rxd := false, lowPeriod := some l
    idle := 0, idleRunning := false, idlePhase := 0 }

theorem State.startBit_eq (s : State) (c : Chan) :
    s.startBit c = (s.updChan c (Channel.started (s.chan c).startLow)).dropResponse c := rfl

theorem exec_lineSampledHigh (c : Chan) (s : State) :
    exec (.lineSampledHigh c) s =
      .next (if (s.chan c).mode ≠ .off ∧ (s.chan c).rx = .waitHigh then
        s.updChan c fun ch =>
          { ch with
            rx := .looking, rxd := true, lowPeriod := none
            idle := 0, idleRunning := true, idlePhase := 0 }
      else s) := rfl

theorem exec_lineFault_of_some {s : State} {c : Chan} {l : LowPeriod}
    (h : (s.chan c).faultable = some l) :
    exec (.lineFault c) s = .next
      ((s.updChan c fun ch =>
        { ch with lowPeriod := some ⟨max l.ticks (bitTicks (2 * ch.charBits)), true⟩ }).raise
          .lineFault) := by
  simp only [exec, execLineFault, h]

theorem exec_lineFault_of_none {s : State} {c : Chan} (h : (s.chan c).faultable = none) :
    exec (.lineFault c) s = .next s := by
  simp only [exec, execLineFault, h]

theorem Channel.charBits_eq (ch : Channel) :
    bitTicks (2 * ch.charBits) = 16 * (2 * if ch.latchedTwoStop then 12 else 11) := bitTicks_eq _

/-- Settles O34: the receiver's events, each by whether the receiver can come to it. -/
theorem startBitAndLowPeriodOfTheReceiver : Obligations.StartBitAndLowPeriodOfTheReceiver := by
  refine ⟨fun s c l u => ⟨fun hm hrx hnew hold hu => ?_, fun hno => ?_⟩,
    fun s c => ⟨fun hm hrx => ?_, fun hno => ?_, fun hm hrx l hl hraised => ?_, fun hno => ?_⟩⟩
  · have hstart : exec (.startBitDetected c) s = .next (u.dropResponse c).settle := by
      rw [exec_startBitDetected, if_pos ((Channel.awaitsStart_iff _).mpr ⟨hm, hrx⟩),
        State.startBit_eq, Channel.startLow_eq hnew hold hrx, hu]
      rfl
    have hresp : (u.chan c).response = (s.chan c).response := by
      rw [hu, State.chan_updChan_same]
    rw [hstart]
    refine ⟨fun hn => ?_, fun r hr => ?_⟩
    · rw [State.dropResponse_of_none (hresp.trans hn)]
    · rw [State.dropResponse_of_some (hresp.trans hr)]
  · rw [exec_startBitDetected, if_neg]
    rw [Channel.awaitsStart_iff]
    rintro ⟨hm, hrx⟩
    rcases hno with h | h | h
    · exact hm h
    · simp [h] at hrx
    · simp [h] at hrx
  · rw [exec_lineSampledHigh, if_pos ⟨hm, hrx⟩]
  · rw [exec_lineSampledHigh, if_neg fun h => hno.elim h.1 fun hrx => hrx h.2]
  · rw [exec_lineFault_of_some ((Channel.faultable_eq_some _ l).mpr ⟨hm, hrx, hl, hraised⟩)]
    simp only [Channel.charBits_eq]
    rfl
  · refine exec_lineFault_of_none (Option.eq_none_iff_forall_ne_some.mpr fun l hl => ?_)
    obtain ⟨hm, hrx, hlow, hraised⟩ := (Channel.faultable_eq_some _ l).mp hl
    rcases hno with h | h | h | h | ⟨m, h, hr⟩
    · exact hm h
    · simp [h] at hrx
    · simp [h] at hrx
    · rw [h] at hlow; cases hlow
    · rw [h] at hlow
      cases hlow
      rw [hraised] at hr
      cases hr

/-! ### Where a character goes -/

theorem exec_characterReceived (c : Chan) (x : Character) (s : State) :
    exec (.characterReceived c x) s = .next (s.lineCharacter c x) := rfl

theorem State.lineCharacter_of_off {s : State} {c : Chan} (h : (s.chan c).mode = .off)
    (x : Character) : s.lineCharacter c x = s := if_neg (not_not_intro h)

theorem State.lineCharacter_of_waitHigh {s : State} {c : Chan} (h : (s.chan c).rx = .waitHigh)
    (x : Character) : s.lineCharacter c x = s := by
  simp only [State.lineCharacter, h, ite_self]

theorem State.lineCharacter_of_inCharacter {s : State} {c : Chan} (hm : (s.chan c).mode ≠ .off)
    (h : (s.chan c).rx = .inCharacter) (x : Character) :
    s.lineCharacter c x = s.receiveCharacter c x := by
  rw [State.lineCharacter, if_pos hm, h]

theorem State.lineCharacter_of_awaitsStart {s : State} {c : Chan} (hm : (s.chan c).mode ≠ .off)
    (h : (s.chan c).rx = .looking ∨ (s.chan c).rx = .candidate) (x : Character) :
    s.lineCharacter c x =
      if ((s.startBit c).settle.chan c).mode ≠ .off then (s.startBit c).settle.receiveCharacter c x
      else (s.startBit c).settle := by
  rcases h with h | h <;> rw [State.lineCharacter, if_pos hm, h]

theorem State.startBit_rx (s : State) (c : Chan) : ((s.startBit c).chan c).rx = .inCharacter := by
  rw [State.startBit_eq]
  cases hr : ((s.updChan c (Channel.started (s.chan c).startLow)).chan c).response with
  | none =>
    rw [State.dropResponse_of_none hr, State.chan_updChan_same]
    rfl
  | some r =>
    rw [State.dropResponse_of_some hr, State.chan_updChan_same]
    simp [Channel.started]

/-- A channel that has not entered OFF is as it was before the conditions were tested. -/
theorem State.settle_chan_of_ne_off {s : State} {c : Chan} (h : (s.settle.chan c).mode ≠ .off) :
    s.settle.chan c = s.chan c := by
  rw [State.settle_chan, Channel.settle] at h ⊢
  split at h
  · exact absurd rfl h
  · next hno => rw [if_neg hno]

/-- The character finds the receiver as its start bit leaves it (log 7). -/
theorem State.lineCharacter_of_startBit {s : State} {c : Chan} (hm : (s.chan c).mode ≠ .off)
    (h : (s.chan c).rx = .looking ∨ (s.chan c).rx = .candidate) (x : Character) :
    s.lineCharacter c x = (s.startBit c).settle.lineCharacter c x := by
  rw [State.lineCharacter_of_awaitsStart hm h]
  split
  · next hon =>
    rw [State.lineCharacter_of_inCharacter hon]
    rw [State.settle_chan_of_ne_off hon, State.startBit_rx]
  · next hoff => rw [State.lineCharacter_of_off (Classical.not_not.mp hoff)]

/-- An engine that a channel in ABORTING or OFF holds takes no character (R45, R72). -/
theorem State.engineTake_of_rest {s : State} {c : Chan} (h : (s.chan c).inService = false)
    (x : Character) : s.engineTake c x = s := by
  simp [State.engineTake, h]

theorem State.lineCharacter_of_aborting {s : State} {c : Chan} {x : Character}
    (hm : (s.chan c).mode = .aborting) (hrx : (s.chan c).rx = .inCharacter)
    (hl : (s.chan c).lineTx = .quiet) (hx : x.framing = false) :
    s.lineCharacter c x = (s.updChan c Channel.heard).settle := by
  have hon : (s.chan c).mode ≠ .off := by rw [hm]; exact nofun
  have hrest : (s.chan c).inService = false := Channel.inService_of_rest (.inr hm)
  have hrest' : ((s.updChan c Channel.heard).chan c).inService = false := by
    rw [State.chan_updChan_same]
    exact hrest
  have hbefore : s.beforeCharacter c = s := if_neg (by simp [hrest])
  rw [State.lineCharacter_of_inCharacter hon hrx, State.receiveCharacter, hbefore]
  simp only [hon, State.completeCharacter, hl, Channel.received_of_clean hx, ne_eq,
    not_false_eq_true, if_true, State.engineTake_of_rest hrest']

/-! ### Serving a request before a character -/

theorem State.serveFor_of_some {s : State} {c : Chan} {n : Nat}
    (h : (s.chan c).engine.request = some n) (k : Nat) :
    s.serveFor c (k + 1) = s.serveOne.serveFor c k := if_pos (by simp [State.hasRequest, h])

/-- More services than requests wait change nothing more. -/
theorem State.serveFor_succ {s : State} {k : Nat} (h : s.requests.length ≤ k) (c : Chan) :
    s.serveFor c (k + 1) = s.serveFor c k := by
  induction k generalizing s with
  | zero =>
    have hno := State.noRequests_of_length (Nat.le_zero.mp h) c
    rw [State.serveFor_of_none (by simp [State.hasRequest, hno]),
      State.serveFor_of_none (by simp [State.hasRequest, hno])]
  | succ k ih =>
    cases hr : (s.chan c).engine.request with
    | none =>
      rw [State.serveFor_of_none (by simp [State.hasRequest, hr]),
        State.serveFor_of_none (by simp [State.hasRequest, hr])]
    | some n =>
      rw [State.serveFor_of_some hr, State.serveFor_of_some hr]
      exact ih (by rw [State.serveOne_length]; omega)

/-- Serving a request leaves a channel with a frame in flight in its state, with its line transmitter
and its receiver. -/
theorem State.serveOne_chan_inFlight {s : State} {c : Chan}
    (h : (s.chan c).engine.parser ≠ .hunt) :
    (s.serveOne.chan c).mode = (s.chan c).mode ∧ (s.serveOne.chan c).lineTx = (s.chan c).lineTx ∧
      (s.serveOne.chan c).rx = (s.chan c).rx := by
  by_cases hno : s.NoRequests
  · rw [State.serveOne_of_none hno]
    exact ⟨rfl, rfl, rfl⟩
  · obtain ⟨d, n, hn⟩ := State.exists_nextRequest hno
    have hans : ∀ r, ((s.answered d r).chan c).mode = (s.chan c).mode ∧
        ((s.answered d r).chan c).lineTx = (s.chan c).lineTx ∧
        ((s.answered d r).chan c).rx = (s.chan c).rx ∧
        ((s.answered d r).chan c).engine.parser = (s.chan c).engine.parser := fun r => by
      rw [State.answered_chan]
      split
      · next heq => subst heq; exact ⟨rfl, rfl, rfl, rfl⟩
      · exact ⟨rfl, rfl, rfl, rfl⟩
    have hserve : ((s.serveRequest d n).chan c).mode = (s.chan c).mode ∧
        ((s.serveRequest d n).chan c).lineTx = (s.chan c).lineTx ∧
        ((s.serveRequest d n).chan c).rx = (s.chan c).rx ∧
        ((s.serveRequest d n).chan c).engine.parser = (s.chan c).engine.parser := by
      obtain heq | ⟨p, -, -, heq⟩ := s.serveRequest_cases d n
      · rw [heq]
        exact hans _
      · simpa only [heq, State.grant_chan_frame] using hans (.storing p)
    obtain ⟨hm, hl, hrx, hp⟩ := hserve
    have hstay : ¬ ((s.serveRequest d n).chan c).MayStop := fun hstop =>
      h (hp ▸ hstop.2.2.2.2.2)
    rw [State.serveOne_of_next hn, State.settle_chan_of_not_mayStop hstay]
    exact ⟨hm, hl, hrx⟩

theorem State.beforeCharacter_of_hears {s : State} {c : Chan} (h : s.Hears c) :
    s.beforeCharacter c = s.serveFor c 4 :=
  if_pos (by rw [Channel.inService_of h.1, h.2.1]; rfl)

/-- A character finds the part as it is after the allocator has served the next request (R28). -/
theorem State.lineCharacter_of_serveOne {s : State} {c : Chan} {n : Nat} (h : s.Hears c)
    (hlaw : (s.chan c).engine.Law) (hr : (s.chan c).engine.request = some n) (x : Character) :
    s.lineCharacter c x = s.serveOne.lineCharacter c x := by
  have hp : (s.chan c).engine.parser ≠ .hunt := by
    obtain ⟨-, -, hreq, -, -⟩ := hlaw
    rw [(hreq n hr).1]
    exact nofun
  obtain ⟨hm, hl, hrx⟩ := State.serveOne_chan_inFlight hp
  have hone : s.serveOne.Hears c := by
    rw [State.Hears, hm, hl, hrx]
    exact h
  have hcard : s.serveOne.requests.length ≤ 3 := by
    rw [State.serveOne_length]
    have := s.requests_length_le
    omega
  have hbefore : s.beforeCharacter c = s.serveOne.beforeCharacter c := by
    rw [State.beforeCharacter_of_hears h, State.beforeCharacter_of_hears hone,
      State.serveFor_of_some hr, State.serveFor_succ hcard]
  rw [State.lineCharacter_of_inCharacter (Channel.ne_off_of_inService h.1) h.2.2,
    State.lineCharacter_of_inCharacter (Channel.ne_off_of_inService hone.1) hone.2.2,
    State.receiveCharacter, hbefore]
  rfl

/-- Settles O35, by the receiver's state; and by the requests that wait. -/
theorem characterFollowsItsStartBitAndRequest :
    Obligations.CharacterFollowsItsStartBitAndRequest := by
  refine ⟨fun s c x => ⟨rfl, fun hno => ?_, fun hm hrx => ?_, fun hm hrx hl hx => ?_⟩,
    fun s c n x h hlaw hr => ?_⟩
  · rw [exec_characterReceived]
    rcases hno with h | h
    · rw [State.lineCharacter_of_off h]
    · rw [State.lineCharacter_of_waitHigh h]
  · refine ⟨(s.startBit c).settle, ?_, ?_⟩
    · rw [exec_startBitDetected, if_pos ((Channel.awaitsStart_iff _).mpr ⟨hm, hrx⟩)]
    · rw [exec_characterReceived, exec_characterReceived, State.lineCharacter_of_startBit hm hrx]
  · rw [exec_characterReceived, State.lineCharacter_of_aborting hm hrx hl hx]
  · rw [exec_characterReceived, exec_characterReceived, State.lineCharacter_of_serveOne h hlaw hr]

/-! ### The class of a DEST -/

/-- The class by four tests, the first that passes (R48). -/
theorem State.classify_eq (s : State) (c : Chan) (d : Byte) :
    s.classify c d =
      if (s.chan c).hasOwn && d == (s.chan c).ownAddr then some .own
      else if d == 0xFF && (s.chan c).acceptBroadcast then some .broadcast
      else if s.listed c d then some .listed
      else if (s.chan c).promiscuous then some .any
      else none := rfl

/-- Settles O36, test by test. -/
theorem destinationIsClassedInOrder : Obligations.DestinationIsClassedInOrder := by
  rintro s c d _ _ _ _ rfl rfl rfl rfl
  have hown : ((s.chan c).hasOwn && d == (s.chan c).ownAddr) = true ↔
      0x01 ≤ (s.chan c).ownAddr.toNat ∧ (s.chan c).ownAddr.toNat ≤ 0xEF ∧ d = (s.chan c).ownAddr := by
    rw [Bool.and_eq_true, Channel.hasOwn_iff, beq_iff_eq, and_assoc]
  have hbroad : (d == 0xFF && (s.chan c).acceptBroadcast) = true ↔
      d = 0xFF ∧ (s.chan c).flags.getLsbD 1 = true := by
    rw [Bool.and_eq_true, beq_iff_eq]
    rfl
  rw [s.classify_eq, ← hown, ← hbroad, ← s.listed_iff,
    show (s.chan c).flags.getLsbD 2 = (s.chan c).promiscuous from rfl]
  refine ⟨fun h1 => ?_, fun h1 h2 => ?_, fun h1 h2 h3 => ?_, fun h1 h2 h3 h4 => ?_,
    fun h1 h2 h3 h4 => ?_⟩
  · rw [if_pos h1]
  · rw [if_neg h1, if_pos h2]
  · rw [if_neg h1, if_neg h2, if_pos h3]
  · rw [if_neg h1, if_neg h2, if_neg h3, if_pos h4]
  · rw [if_neg h1, if_neg h2, if_neg h3, if_neg h4]

/-! ### Rejects and gaps -/

theorem State.dropFilling_of_storing {s : State} {c : Chan} {h : Page}
    (hr : (s.chan c).engine.room = .storing h) : s.dropFilling c = s.release h := by
  simp only [State.dropFilling, hr]

theorem State.dropFilling_of_not_storing {s : State} {c : Chan}
    (hr : ∀ h, (s.chan c).engine.room ≠ .storing h) : s.dropFilling c = s := by
  unfold State.dropFilling
  split
  · next h heq => exact absurd heq (hr h)
  · rfl
  · rfl

/-- Settles O37, by whether the engine fills a chain. -/
theorem rejectReleasesCountsAndEnds : Obligations.RejectReleasesCountsAndEnds := by
  intro s c k p
  refine ⟨fun h hr => ?_, fun hr => ?_⟩
  · rw [State.rejectFrame, State.dropFilling_of_storing hr]
    rfl
  · rw [State.rejectFrame, State.dropFilling_of_not_storing hr]
    rfl

theorem exec_gapExpiry (c : Chan) (s : State) :
    exec (.gapExpiry c) s =
      .next (if (s.chan c).inService ∧ (s.chan c).idleRunning ∧ (s.chan c).engine.parser.inFlight then
        (((s.updChan c (Channel.idleAtLeast ((s.chan c).gapLimit + 1))).serveFor c 4).rejectFrame
          c .rxGap .hunt).settle
      else s) := rfl

theorem exec_skipGapExit (c : Chan) (s : State) :
    exec (.skipGapExit c) s =
      .next (if (s.chan c).inService ∧ (s.chan c).idleRunning ∧ (s.chan c).engine.parser = .skip then
        ((s.updChan c (Channel.idleAtLeast ((s.chan c).gapLimit + 1))).endFrame c .hunt).settle
      else s) := rfl

/-- Settles O44: both events by the channel's state, line idle time and the parser. -/
theorem gapEndsFrameOrSkip : Obligations.GapEndsFrameOrSkip := by
  intro s c u hu
  have hidle : s.updChan c (Channel.idleAtLeast ((s.chan c).gapLimit + 1)) = u :=
    (State.updChan_congr rfl).trans hu.symm
  rw [exec_gapExpiry, exec_skipGapExit, hidle]
  refine ⟨fun hm hrun => ⟨fun hp hr => ?_, fun hp => ?_, fun hp => ?_⟩, fun hno => ?_, fun hp => ?_,
    fun hp => ?_⟩
  · have hnone : u.hasRequest c = false := by
      rw [hu, State.hasRequest, State.chan_updChan_same]
      simp [hr]
    rw [if_pos ⟨Channel.inService_of hm, hrun, hp⟩, State.serveFor_of_none hnone]
  · rw [if_pos ⟨Channel.inService_of hm, hrun, hp⟩]
  · rw [if_pos ⟨Channel.inService_of hm, hrun, hp⟩]
    rfl
  · have hstop : ¬ ((s.chan c).inService = true ∧ (s.chan c).idleRunning = true) := by
      rintro ⟨hs, hrun⟩
      rcases hno with h | h | h
      · rw [Channel.inService_of_rest (.inl h)] at hs; cases hs
      · rw [Channel.inService_of_rest (.inr h)] at hs; cases hs
      · rw [h] at hrun; cases hrun
    exact ⟨by rw [if_neg fun h => hstop ⟨h.1, h.2.1⟩], by rw [if_neg fun h => hstop ⟨h.1, h.2.1⟩]⟩
  · rw [if_neg fun h => by rw [hp] at h; exact absurd h.2.2 Bool.false_ne_true]
  · rw [if_neg fun h => hp h.2.2]

/-! ### The response slot and the sequence table -/

/-- The response of an engine's frame on a channel (R80). -/
theorem State.placeResponse_of_empty {s : State} {c : Chan} (h : (s.chan c).response = none)
    (nak : Bool) (e : Engine) :
    s.placeResponse c nak e =
      s.updChan c fun ch =>
        { ch with response := some ⟨nak, e.src, ctrlSeq e.ctrl, bitTicks (s.chan c).charBits⟩ } := by
  rw [State.placeResponse, if_neg (by simp [h])]
  exact State.updChan_congr rfl

theorem State.placeResponse_of_pending {s : State} {c : Chan} {old : Response}
    (h : (s.chan c).response = some old) (nak : Bool) (e : Engine) :
    s.placeResponse c nak e =
      (s.count c .respDropped).updChan c fun ch =>
        { ch with response := some ⟨nak, e.src, ctrlSeq e.ctrl, bitTicks (s.chan c).charBits⟩ } := by
  have hbits : ((s.count c .respDropped).chan c).charBits = (s.chan c).charBits := by
    simp [Channel.charBits]
  rw [State.placeResponse, if_pos (by simp [h])]
  refine State.updChan_congr ?_
  rw [hbits]

theorem SeqEntry.isFor_iff (c : Chan) (src : Byte) (e : SeqEntry) :
    e.isFor c src = true ↔ e.chan = c ∧ e.src = src := by
  simp [SeqEntry.isFor]

theorem seqRecord_eq {t others : List SeqEntry} {c : Chan} {src : Byte}
    (ho : others = t.filter fun e => ¬(e.chan = c ∧ e.src = src)) (q : BitVec 3) :
    seqRecord t c src q =
      (if others.length < 32 then others else others.drop 1) ++ [⟨c, src, q⟩] := by
  have hfilter : t.filter (fun e => !e.isFor c src) = others := by
    rw [ho]
    refine List.filter_congr fun e _ => ?_
    simp only [SeqEntry.isFor, decide_not, Bool.decide_and]
    rfl
  rw [seqRecord, hfilter]
  rfl

/-- A channel and source have one entry (R73). -/
theorem State.SeqKeysDistinct.eq_of_mem {s : State} (h : s.SeqKeysDistinct) {a b : SeqEntry}
    (ha : a ∈ s.seqTable) (hb : b ∈ s.seqTable) (hc : a.chan = b.chan) (hsrc : a.src = b.src) :
    a = b := by
  have hall : ∀ l : List SeqEntry, l.Pairwise (fun a b => ¬ (a.chan = b.chan ∧ a.src = b.src)) →
      a ∈ l → b ∈ l → a = b := fun l hl ha hb => by
    induction hl with
    | nil => exact absurd ha List.not_mem_nil
    | cons hhead _ ih =>
      rcases List.mem_cons.mp ha with heq | ha' <;> rcases List.mem_cons.mp hb with heq' | hb'
      · rw [heq, heq']
      · exact absurd ⟨heq ▸ hc, heq ▸ hsrc⟩ (hhead b hb')
      · exact absurd ⟨heq' ▸ hc.symm, heq' ▸ hsrc.symm⟩ (hhead a ha')
      · exact ih ha' hb'
  exact hall _ h ha hb

/-- With one entry for a channel and source a lookup finds it (R73, R75). -/
theorem State.seqHit_iff {s : State} (h : s.SeqKeysDistinct) (c : Chan) (src : Byte) (q : BitVec 3) :
    s.seqHit c src q = true ↔ ⟨c, src, q⟩ ∈ s.seqTable := by
  have hfind : ∀ e, seqLookup s.seqTable c src = some e ↔
      e ∈ s.seqTable ∧ e.chan = c ∧ e.src = src := fun e => by
    constructor
    · intro he
      exact ⟨List.mem_of_find?_eq_some he, (SeqEntry.isFor_iff c src e).mp (List.find?_some he)⟩
    · rintro ⟨hmem, hc, hsrc⟩
      cases hl : seqLookup s.seqTable c src with
      | none =>
        exact absurd ((SeqEntry.isFor_iff c src e).mpr ⟨hc, hsrc⟩)
          (by simpa using List.find?_eq_none.mp hl e hmem)
      | some e' =>
        obtain ⟨hc', hsrc'⟩ := (SeqEntry.isFor_iff c src e').mp (List.find?_some hl)
        exact congrArg some (h.eq_of_mem (List.mem_of_find?_eq_some hl) hmem (hc'.trans hc.symm)
          (hsrc'.trans hsrc.symm))
  unfold State.seqHit
  constructor
  · intro hhit
    split at hhit
    · next e he =>
      obtain ⟨hmem, hc, hsrc⟩ := (hfind e).mp he
      obtain rfl := hc
      obtain rfl := hsrc
      rw [← beq_iff_eq.mp hhit]
      exact hmem
    · cases hhit
  · intro hmem
    rw [(hfind _).mpr ⟨hmem, rfl, rfl⟩]
    exact beq_self_eq_true q

/-- Settles O43, by what the slot and the table hold. -/
theorem responseSlotAndSequenceTableKeepTheNewest :
    Obligations.ResponseSlotAndSequenceTableKeepTheNewest := by
  refine ⟨?_, fun t c src q others ho => ⟨fun hlt => ?_, fun heq => ?_, ?_⟩⟩
  · rintro s c nak e _ rfl
    have hgap : bitTicks (s.chan c).charBits = 16 * if (s.chan c).latchedTwoStop then 12 else 11 :=
      bitTicks_eq _
    refine ⟨fun h => ?_, fun old h => ?_⟩
    · rw [State.placeResponse_of_empty h, hgap]
      rfl
    · rw [State.placeResponse_of_pending h, hgap]
      rfl
  · rw [seqRecord_eq ho, if_pos hlt]
  · rw [seqRecord_eq ho, if_neg (by omega), List.drop_one]
  · rintro s rfl hd
    exact State.seqHit_iff hd c src q

end Sys2Proof.Machine

/-!
PROOFS. The receive engine (chapter 3): what each character does by the parser's state, and the
frame-end decision.
-/
namespace Sys2Proof.Machine

/-! ### What the engine takes -/

section
variable {s : State} {c : Chan}

theorem State.engineTake_of_next (h : (s.chan c).inService = true) (b : Byte) :
    s.engineTake c ⟨b, false, false⟩ = s.takeNext c b := by
  simp [State.engineTake, h]

theorem State.engineTake_of_marker (h : (s.chan c).inService = true) (b : Byte) :
    s.engineTake c ⟨b, true, false⟩ =
      if (s.chan c).engine.parser.inFlight then (s.rejectFrame c .rxTrunc .hunt).takeDest c b
      else s.takeDest c b := by
  simp [State.engineTake, h]

theorem State.engineTake_of_framing (h : (s.chan c).inService = true) (b : Byte) (m : Bool) :
    s.engineTake c ⟨b, m, true⟩ =
      if (s.chan c).engine.parser.inFlight then s.rejectFrame c .rxFraming .hunt
      else if (s.chan c).engine.parser = .skip then s.endFrame c .hunt
      else s := by
  simp [State.engineTake, h]

theorem State.takeNext_of_between
    (h : (s.chan c).engine.parser = .hunt ∨ (s.chan c).engine.parser = .skip) (b : Byte) :
    s.takeNext c b = s := by
  rcases h with h | h <;> simp only [State.takeNext, h]

theorem State.takeDest_of_none {b : Byte} (h : s.classify c b = none) :
    s.takeDest c b = s.endFrame c .skip := by
  simp only [State.takeDest, h]

theorem State.takeDest_of_some {b : Byte} {k : AddrClass} (h : s.classify c b = some k) :
    s.takeDest c b =
      if b = 0 then s.rejectFrame c .rxMalformed .skip
      else s.updEngine c fun _ =>
        { Engine.idle .destSeen with cls := k, dest := b, check := crcByte 0xFFFF b } := by
  simp only [State.takeDest, h]

end

theorem Parser.not_inFlight_of_between {p : Parser} (h : p = .hunt ∨ p = .skip) :
    p.inFlight = false := by
  rcases h with rfl | rfl <;> rfl

/-! ### A heard character -/

section
variable {s : State} {c : Chan} (h : s.Hears c)
include h

theorem exec_clean_of_hears (hr : (s.chan c).engine.request = none) (b : Byte) (m : Bool) :
    exec (.characterReceived c ⟨b, m, false⟩) s =
      .next ((s.updChan c Channel.heard).engineTake c ⟨b, m, false⟩).settle := by
  rw [exec_characterReceived_of_hears _ h hr, Channel.received_of_clean rfl]

/-- A channel that hears a character is in service after it. -/
theorem State.heard_inService : ((s.updChan c Channel.heard).chan c).inService = true := by
  rw [State.chan_updChan_same]
  exact Channel.inService_of h.1

/-- A character without marker or framing error is the next of its frame. -/
theorem exec_next_of_hears (hr : (s.chan c).engine.request = none) (b : Byte) :
    exec (.characterReceived c ⟨b, false, false⟩) s =
      .next ((s.updChan c Channel.heard).takeNext c b).settle := by
  rw [exec_clean_of_hears h hr, State.engineTake_of_next (State.heard_inService h)]

end

theorem State.heard_engine (s : State) (c : Chan) :
    ((s.updChan c Channel.heard).chan c).engine = (s.chan c).engine := by
  rw [State.chan_updChan_same]
  rfl

theorem State.heard_classify (s : State) (c : Chan) (b : Byte) :
    (s.updChan c Channel.heard).classify c b = s.classify c b := by
  simp only [State.classify_eq, State.chan_updChan_same]
  rfl

/-- The trailing low cells of a character are those of its highest 1 (log 19). -/
theorem lowTicksOf_eq (b : Byte) (m : Bool) :
    lowTicksOf ⟨b, m, true⟩ = 16 * trailingLow b m + 8 := by
  revert b m
  decide +kernel

/-- The low period that a framing error leaves (R4). -/
theorem Channel.lowPeriodAfter_of_framing (ch : Channel) (b : Byte) (m : Bool) :
    ch.lowPeriodAfter ⟨b, m, true⟩ = ch.lowLeft b m := by
  have hafter : ∀ p, lowAfter ⟨b, m, true⟩ p = some ⟨16 * trailingLow b m + 8,
      b == 0 && !m && match p with | some l => l.raised | none => false⟩ := fun p => by
    rw [← lowTicksOf_eq]
    rfl
  unfold Channel.lowPeriodAfter Channel.lowLeft
  cases hl : ch.lowPeriod with
  | none => simp [hafter]
  | some p =>
    by_cases hs : 168 ≤ ch.rxTicks
    · have hto : ch.sampledToStop = true := decide_eq_true hs
      simp [hto, hs]
    · have hto : ch.sampledToStop = false := decide_eq_false hs
      simp [hto, hs, hafter]

/-- A channel whose receiver has completed a character with a framing error. -/
theorem Channel.received_of_framing (b : Byte) (m : Bool) :
    Channel.received ⟨b, m, true⟩ = fun ch =>
      { ch with
        rx := .waitHigh, rxTicks := 0, rxBits := 0, rxd := false
        lowPeriod := ch.lowLeft b m
        idle := 0, idleRunning := false, idlePhase := 0 } := by
  funext ch
  simp only [Channel.received, Channel.lowPeriodAfter_of_framing]
  rfl

/-- Settles O38: between frames by the marker and the class, in flight by the framing error and the
marker. -/
theorem characterStartsPassesOrEndsAFrame : Obligations.CharacterStartsPassesOrEndsAFrame := by
  rintro s c b m _ v h hr rfl hv
  have hin := State.heard_inService h
  have hvin : (v.chan c).inService = true := by
    rw [hv, State.chan_updChan_same]
    exact Channel.inService_of h.1
  have hveng : (v.chan c).engine = (s.chan c).engine := by rw [hv, State.chan_updChan_same]
  have hframing : exec (.characterReceived c ⟨b, m, true⟩) s =
      .next (v.engineTake c ⟨b, m, true⟩).settle := by
    rw [exec_characterReceived_of_hears _ h hr, Channel.received_of_framing, ← hv]
  rw [hframing, State.engineTake_of_framing hvin, hveng, exec_clean_of_hears h hr,
    State.engineTake_of_next hin, exec_clean_of_hears h hr, State.engineTake_of_marker hin,
    s.heard_engine]
  refine ⟨fun hp => ⟨?_, fun hk => ?_, fun k hk hb => ?_, fun k hk hb => ?_⟩, fun hp => ?_,
    fun hp => ?_, fun hp => ⟨?_, ?_⟩⟩
  · rw [State.takeNext_of_between (by rwa [s.heard_engine])]
  · rw [if_neg (by simp [Parser.not_inFlight_of_between hp]),
      State.takeDest_of_none ((s.heard_classify c b).trans hk)]
    rfl
  · rw [if_neg (by simp [Parser.not_inFlight_of_between hp]),
      State.takeDest_of_some ((s.heard_classify c b).trans hk), if_neg hb]
    rfl
  · rw [if_neg (by simp [Parser.not_inFlight_of_between hp]),
      State.takeDest_of_some ((s.heard_classify c b).trans hk), if_pos hb]
  · rw [hp]
    rfl
  · rw [hp]
    rfl
  · rw [if_pos hp]
  · rw [if_pos hp]

/-! ### The header -/

theorem srcOk_iff (b : Byte) : srcOk b = true ↔ 0x01 ≤ b.toNat ∧ b.toNat ≤ 0xEF := by
  simp [srcOk, isIndividual]

theorem ctrlOk_iff (b : Byte) :
    ctrlOk b = true ↔
      b.getLsbD 7 = false ∧ b.getLsbD 6 = false ∧ (b.getLsbD 3 = false ∨ ctrlKind b = .data) := by
  simp only [ctrlOk, ctrlReserved, ctrlAr, Bool.and_eq_true, Bool.or_eq_true, Bool.not_eq_true',
    Bool.or_eq_false_iff, beq_iff_eq, and_assoc]

theorem lenOk_iff (k : Kind) (b : Byte) :
    lenOk k b = true ↔
      (k = .data ∧ b.toNat ≤ 240) ∨ ((k = .ack ∨ k = .nak) ∧ b = 0x00) ∨ (k = .hold ∧ b = 0x01) := by
  have h0 : ∀ a : Byte, a = 0x00 → a.toNat ≤ 240 := by rintro _ rfl; decide
  have h1 : ∀ a : Byte, a = 0x01 → a.toNat ≤ 240 := by rintro _ rfl; decide
  cases k with
  | data => simp [lenOk]
  | ack => simpa [lenOk] using h0 b
  | nak => simpa [lenOk] using h0 b
  | hold => simpa [lenOk] using h1 b

section
variable {s : State} {c : Chan}

/-- A change of an engine, by the engine's value. -/
theorem State.updEngine_eq {e : Engine} (h : (s.chan c).engine = e) (f : Engine → Engine) :
    s.updEngine c f = s.updChan c fun ch => { ch with engine := f e } := by
  rw [← h, State.updEngine]
  exact State.updChan_congr rfl

theorem State.takeField_of_good {ok : Bool} (h : ok = true) (f : Engine → Engine) :
    s.takeField c ok f = s.updChan c fun ch => { ch with engine := f (s.chan c).engine } := by
  subst h
  exact State.updEngine_eq rfl f

theorem State.takeField_of_bad {ok : Bool} (h : ok = false) (f : Engine → Engine) :
    s.takeField c ok f = s.rejectFrame c .rxMalformed .skip := by
  subst h
  rfl

theorem State.takeNext_of_destSeen (h : (s.chan c).engine.parser = .destSeen) (b : Byte) :
    s.takeNext c b = s.takeSrc c b := by simp only [State.takeNext, h]

theorem State.takeNext_of_src (h : (s.chan c).engine.parser = .src) (b : Byte) :
    s.takeNext c b = s.takeCtrl c b := by simp only [State.takeNext, h]

theorem State.takeNext_of_ctrl (h : (s.chan c).engine.parser = .ctrl) (b : Byte) :
    s.takeNext c b = s.takeLen c b := by simp only [State.takeNext, h]

theorem State.takeNext_of_payload
    (h : (s.chan c).engine.parser = .len ∨ (s.chan c).engine.parser = .payload) (b : Byte) :
    s.takeNext c b =
      if (s.chan c).engine.count < (s.chan c).engine.len.toNat then s.takePayload c b
      else s.takeCheckHi c b := by
  rcases h with h | h <;> simp only [State.takeNext, h]

theorem State.takeNext_of_checkHi (h : (s.chan c).engine.parser = .checkHi) (b : Byte) :
    s.takeNext c b = s.frameEnd c b := by simp only [State.takeNext, h]

end

/-- Settles O39: each field by whether it is well formed. -/
theorem headerCharactersAreJudged : Obligations.HeaderCharactersAreJudged := by
  rintro s c b e u _ h he hr hu rfl
  have heng : (u.chan c).engine = e := by rw [hu, s.heard_engine, he]
  have hexec : exec (.characterReceived c ⟨b, false, false⟩) s = .next (u.takeNext c b).settle := by
    rw [hu]
    exact exec_next_of_hears h (he ▸ hr) b
  rw [hexec]
  refine ⟨fun hp => ?_, fun hp => ?_, fun hp => ?_⟩
  · rw [State.takeNext_of_destSeen (by rw [heng, hp]), State.takeSrc]
    refine ⟨fun hgood => ?_, fun hbad => ?_⟩
    · rw [State.takeField_of_good ((srcOk_iff b).mpr hgood), heng]
    · have hno : srcOk b = false := by
        rw [← Bool.not_eq_true, srcOk_iff]
        rcases hbad with rfl | hbad
        · decide
        · omega
      rw [State.takeField_of_bad hno]
  · rw [State.takeNext_of_src (by rw [heng, hp]), State.takeCtrl]
    refine ⟨fun hgood => ?_, fun hbad => ?_⟩
    · rw [State.takeField_of_good ((ctrlOk_iff b).mpr hgood), heng]
    · have hno : ctrlOk b = false := by
        rw [← Bool.not_eq_true, ctrlOk_iff]
        rintro ⟨h7, h6, h3⟩
        rcases hbad with hb | hb | ⟨hb, hk⟩
        · rw [h7] at hb; cases hb
        · rw [h6] at hb; cases hb
        · exact h3.elim (fun h3 => by rw [h3] at hb; cases hb) hk
      rw [State.takeField_of_bad hno]
  · rw [State.takeNext_of_ctrl (by rw [heng, hp]), State.takeLen, heng]
    refine ⟨fun hk hb => ?_, fun hgood => ?_, fun hbad => ?_⟩
    · rw [State.takeField_of_good ((lenOk_iff _ b).mpr (.inl ⟨hk, hb⟩)), heng, if_pos hk]
      rfl
    · have hk : ctrlKind e.ctrl ≠ .data := by
        rcases hgood with ⟨hk | hk, -⟩ | ⟨hk, -⟩ <;> rw [hk] <;> exact nofun
      rw [State.takeField_of_good ((lenOk_iff _ b).mpr (.inr hgood)), heng, if_neg hk]
    · have hno : lenOk (ctrlKind e.ctrl) b = false := by
        rw [← Bool.not_eq_true, lenOk_iff]
        rcases hbad with hb | ⟨hk | hk, hb⟩ | ⟨hk, hb⟩
        · rintro (⟨-, hle⟩ | ⟨-, rfl⟩ | ⟨-, rfl⟩)
          · omega
          · exact absurd hb (by decide)
          · exact absurd hb (by decide)
        · simpa [hk] using hb
        · simpa [hk] using hb
        · simpa [hk] using hb
      rw [State.takeField_of_bad hno]

/-! ### Payload characters -/

theorem State.storeChain_chan (s : State) (h : Page) (off : Nat) (v : Byte) (c : Chan) :
    (s.storeChain h off v).chan c = s.chan c := by
  simp [State.chan_def]

/-- An engine that has taken a payload character (R57). -/
def Engine.fed (b : Byte) (e : Engine) : Engine :=
  { e with
    parser := .payload, count := e.count + 1, check := crcByte e.check b
    duration := if ctrlKind e.ctrl = .hold then b else e.duration }

theorem State.takePayload_of_storing {s : State} {c : Chan} {h : Page}
    (hr : (s.chan c).engine.room = .storing h) (b : Byte) :
    s.takePayload c b =
      (s.storeChain h (8 + (s.chan c).engine.count) b).updEngine c (Engine.fed b) := by
  simp only [State.takePayload, hr]
  rfl

theorem State.takePayload_of_not_storing {s : State} {c : Chan}
    (hr : ∀ h, (s.chan c).engine.room ≠ .storing h) (b : Byte) :
    s.takePayload c b = s.updEngine c (Engine.fed b) := by
  cases hroom : (s.chan c).engine.room with
  | storing h => exact absurd hroom (hr h)
  | none => simp only [State.takePayload, hroom]; rfl
  | noRoom => simp only [State.takePayload, hroom]; rfl

/-- Settles O40, by whether the payload is complete and then by the room mark. -/
theorem payloadIsStoredInLineOrder : Obligations.PayloadIsStoredInLineOrder := by
  intro s c b e u h he hr hu hp
  have heng : (u.chan c).engine = e := by rw [hu, s.heard_engine, he]
  rw [exec_next_of_hears h (he ▸ hr), ← hu, State.takeNext_of_payload (by rwa [heng]), heng]
  refine ⟨?_, fun hle => ?_⟩
  · rintro hlt v _ rfl ⟨hstore, hkeep⟩
    have htaken : u.takePayload c b = v.updChan c fun ch => { ch with engine := e.fed b } := by
      by_cases hroom : ∃ p, e.room = .storing p
      · obtain ⟨p, hroom⟩ := hroom
        rw [State.takePayload_of_storing (h := p) (by rwa [heng]), heng, ← hstore p hroom]
        exact State.updEngine_eq (by rw [hstore p hroom, State.storeChain_chan, heng]) _
      · have hroom' := not_exists.mp hroom
        rw [State.takePayload_of_not_storing (by rwa [heng]), hkeep hroom']
        exact State.updEngine_eq heng _
    rw [if_pos hlt, htaken]
    rfl
  · rw [if_neg (Nat.not_lt.mpr hle), State.takeCheckHi, State.updEngine_eq heng]

/-! ### The frame-end decision -/

/-- The part in CHECK_LO: the receiver has completed the character and the decision is being taken. -/
theorem State.heard_checkLo (s : State) (c : Chan) :
    (s.updChan c Channel.heard).updEngine c (fun e => { e with parser := .checkLo }) =
      s.updChan c fun ch => { ch.heard with engine := { ch.engine with parser := .checkLo } } :=
  State.updChan_updChan s c _ _

/-- The low CHECK character, in the terms of the part in CHECK_LO. -/
theorem exec_frameEnd_of_hears {s : State} {c : Chan} {lo : Byte} {e : Engine} {u : State}
    (h : s.Hears c) (he : e = (s.chan c).engine) (hr : e.request = none) (hp : e.parser = .checkHi)
    (hu : u = s.updChan c fun ch =>
      { ch.heard with engine := { ch.engine with parser := .checkLo } }) :
    exec (.characterReceived c ⟨lo, false, false⟩) s = .next
      (if e.check = e.checkHi ++ lo then (u.decide c).endFrame c .hunt
      else u.rejectFrame c .rxCheck .hunt).settle := by
  have heng : ((s.updChan c Channel.heard).chan c).engine = e := by rw [s.heard_engine, he]
  rw [exec_next_of_hears h (he ▸ hr), State.takeNext_of_checkHi (by rw [heng, hp]), State.frameEnd,
    s.heard_checkLo, ← hu, heng]
  rfl

/-- What the decision finds in CHECK_LO. -/
theorem State.checkLo_chan {s u : State} {c : Chan}
    (hu : u = s.updChan c fun ch =>
      { ch.heard with engine := { ch.engine with parser := .checkLo } }) :
    u.chan c =
      { (s.chan c).heard with engine := { (s.chan c).engine with parser := .checkLo } } := by
  rw [hu, State.chan_updChan_same]

theorem Channel.responding_iff (ch : Channel) : ch.responding = true ↔ ch.Answers := by
  simp only [Channel.responding, Channel.Answers, Bool.and_eq_true, beq_iff_eq, and_assoc]
  rfl

theorem State.storeBytes_mem_congr {s t : State} (hm : s.mem = t.mem) (hp : s.pageTable = t.pageTable)
    (h : Page) (off : Nat) (l : List Byte) :
    (s.storeBytes h off l).mem = (t.storeBytes h off l).mem := by
  induction l generalizing s t off with
  | nil => exact hm
  | cons b bs ih =>
    have haddr : s.chainAddr h off = t.chainAddr h off := by
      simp only [State.chainAddr, State.chainPages, hp]
    refine ih ?_ (by simpa using hp) (off + 1)
    unfold State.storeChain
    rw [haddr]
    split
    · simp [hm]
    · exact hm

/-- An accepted frame joins the received frame queue with its header area (R69, R91). -/
theorem State.appendFrame_eq {s u : State} {c : Chan} (h : Page) (hm : u.mem = s.mem)
    (hp : u.pageTable = s.pageTable) :
    u.appendFrame c h =
      { u with
        rfq := u.rfq ++ [u.entryOf c h]
        arrival := u.arrival + 1
        pageTable := s.pageTable.own .queuedRx (s.chainPages h)
        mem := ((s.setOwner h .queuedRx).storeBytes h 0 (receiveHeader (u.entryOf c h))).mem } := by
  have hown : u.pageTable.own .queuedRx (u.chainPages h) =
      s.pageTable.own .queuedRx (s.chainPages h) := by
    simp only [State.chainPages, hp]
  rw [State.appendFrame, State.storeBytes_eq, ← hown]
  have hmem := State.storeBytes_mem_congr
    (s := State.setOwner { u with rfq := u.rfq ++ [u.entryOf c h], arrival := u.arrival + 1 } h .queuedRx)
    (t := s.setOwner h .queuedRx) hm hown h 0 (receiveHeader (u.entryOf c h))
  rw [hmem]
  rfl

theorem State.respondIf_true (s : State) (c : Chan) (nak : Bool) (e : Engine) :
    s.respondIf c true nak e = s.placeResponse c nak e := rfl

theorem State.respondIf_false (s : State) (c : Chan) (nak : Bool) (e : Engine) :
    s.respondIf c false nak e = s := rfl

/-- The decision on a DATA frame, by its rows (R66 to R69). -/
theorem State.dataEnd_of_duplicate {s : State} {c : Chan} (hresp : (s.chan c).responding = true)
    (hhit : s.seqHit c (s.chan c).engine.src (ctrlSeq (s.chan c).engine.ctrl) = true) :
    s.dataEnd c =
      (((s.recordSeq c (s.chan c).engine.src (ctrlSeq (s.chan c).engine.ctrl)).dropFilling c).count c
        .rxDuplicate).placeResponse c false (s.chan c).engine := by
  simp [State.dataEnd, hresp, hhit]

section
variable {s : State} {c : Chan} (hnew : ((s.chan c).responding &&
  s.seqHit c (s.chan c).engine.src (ctrlSeq (s.chan c).engine.ctrl)) = false)
include hnew

theorem State.dataEnd_of_no_room (hroom : ∀ h, (s.chan c).engine.room ≠ .storing h) :
    s.dataEnd c =
      (s.count c .rxNoRoom).respondIf c (s.chan c).responding true (s.chan c).engine := by
  rw [State.dataEnd]
  dsimp only
  rw [if_neg (by rw [hnew]; exact Bool.false_ne_true)]
  split
  · rfl
  · rfl
  · next h heq => exact absurd heq (hroom h)

theorem State.dataEnd_of_full {h : Page} (hroom : (s.chan c).engine.room = .storing h)
    (hfull : 32 ≤ s.rfq.length) :
    s.dataEnd c =
      (((s.release h).count c .rxQFull).raise .rfqFull).respondIf c (s.chan c).responding true
        (s.chan c).engine := by
  rw [State.dataEnd]
  dsimp only
  rw [if_neg (by rw [hnew]; exact Bool.false_ne_true), hroom]
  exact if_neg (Nat.not_lt.mpr hfull)

theorem State.dataEnd_of_accepted {h : Page} (hroom : (s.chan c).engine.room = .storing h)
    (hlt : s.rfq.length < 32) :
    s.dataEnd c =
      (if (s.chan c).responding = true then
        ((s.appendFrame c h).count c .rxFrames).recordSeq c (s.chan c).engine.src
          (ctrlSeq (s.chan c).engine.ctrl)
      else (s.appendFrame c h).count c .rxFrames).respondIf c (s.chan c).responding false
        (s.chan c).engine := by
  rw [State.dataEnd]
  dsimp only
  rw [if_neg (by rw [hnew]; exact Bool.false_ne_true), hroom]
  exact if_pos hlt

end

/-- Settles O41: a duplicate; else by the room mark and the room in the queue, with and without a
response. -/
theorem dataFrameEndPlacesTheFrame : Obligations.DataFrameEndPlacesTheFrame := by
  rintro s c lo _ e u h rfl he hr hp hcheck hkind hu
  have hchan := State.checkLo_chan hu
  have heng : (u.chan c).engine = { e with parser := .checkLo } := by rw [hchan, he]
  have hresp : (u.chan c).responding = true ↔ (s.chan c).Answers := by
    rw [Channel.responding_iff, hchan]
    rfl
  have hexec : exec (.characterReceived c ⟨lo, false, false⟩) s = .next
      ((u.dataEnd c).updChan c fun ch => { ch with engine := Engine.idle .hunt }).settle := by
    have hk : ctrlKind (u.chan c).engine.ctrl = .data := by rw [heng]; exact hkind
    rw [exec_frameEnd_of_hears h he hr hp hu, if_pos hcheck, State.decide, hk]
    rfl
  have hhit : u.seqHit c (u.chan c).engine.src (ctrlSeq (u.chan c).engine.ctrl) =
      s.seqHit c e.src (e.ctrl.extractLsb' 0 3) := by
    rw [heng, hu]
    rfl
  rw [hexec]
  refine ⟨fun hans hseq => ?_, fun hnew => ?_⟩
  · rw [State.dataEnd_of_duplicate (hresp.mpr hans) (hhit.trans hseq), heng, hu]
    rfl
  · have hno : ((u.chan c).responding &&
        u.seqHit c (u.chan c).engine.src (ctrlSeq (u.chan c).engine.ctrl)) = false := by
      rcases hnew with hna | hseq
      · rw [Bool.eq_false_iff.mpr (mt hresp.mp hna), Bool.false_and]
      · rw [hhit, hseq, Bool.and_false]
    refine ⟨fun hroom v hyes hnot => ?_, ?_, ?_⟩
    · have hroom' : ∀ h, (u.chan c).engine.room ≠ .storing h := by rwa [heng]
      rw [State.dataEnd_of_no_room hno hroom', heng]
      by_cases hans : (s.chan c).Answers
      · rw [hresp.mpr hans, hyes hans]
        rfl
      · rw [Bool.eq_false_iff.mpr (mt hresp.mp hans), hnot hans]
        rfl
    · rintro p hroom hfull v _ rfl hyes hnot
      have hroom' : (u.chan c).engine.room = .storing p := by rwa [heng]
      have hfull' : 32 ≤ u.rfq.length := by rw [hu]; exact hfull
      rw [State.dataEnd_of_full hno hroom' hfull', heng]
      by_cases hans : (s.chan c).Answers
      · rw [hresp.mpr hans, hyes hans]
        rfl
      · rw [Bool.eq_false_iff.mpr (mt hresp.mp hans), hnot hans]
        rfl
    · rintro p hroom hlt v w hw hyes hnot
      have hroom' : (u.chan c).engine.room = .storing p := by rwa [heng]
      have hlt' : u.rfq.length < 32 := by rw [hu]; exact hlt
      have hentry : u.entryOf c p = ⟨p, c, e.cls, e.dest, e.src, e.ctrl, e.len, s.arrival⟩ := by
        rw [State.entryOf, heng, hu]
        rfl
      have hw' : (u.appendFrame c p).count c .rxFrames = w := by
        rw [State.appendFrame_eq (s := s) p (by rw [hu]; rfl) (by rw [hu]; rfl), hentry, hw,
          show u.rfq = s.rfq by rw [hu]; rfl, show u.arrival = s.arrival by rw [hu]; rfl]
        rfl
      have htable : w.seqTable = s.seqTable := by rw [hw, hu]; simp
      rw [State.dataEnd_of_accepted hno hroom' hlt', heng, hw']
      by_cases hans : (s.chan c).Answers
      · rw [hresp.mpr hans, hyes hans, ← htable]
        rfl
      · rw [Bool.eq_false_iff.mpr (mt hresp.mp hans), hnot hans]
        rfl

/-! ### Other frames -/

section
variable {s : State} {c : Chan}

theorem State.decide_of_ack (hk : ctrlKind (s.chan c).engine.ctrl = .ack) :
    s.decide c =
      if (s.chan c).engine.cls = .own then
        s.deliver c false (s.chan c).engine.src (ctrlSeq (s.chan c).engine.ctrl)
      else s := by
  simp only [State.decide, hk]

theorem State.decide_of_nak (hk : ctrlKind (s.chan c).engine.ctrl = .nak) :
    s.decide c =
      if (s.chan c).engine.cls = .own then
        s.deliver c true (s.chan c).engine.src (ctrlSeq (s.chan c).engine.ctrl)
      else s := by
  simp only [State.decide, hk]

theorem State.decide_of_hold (hk : ctrlKind (s.chan c).engine.ctrl = .hold) :
    s.decide c =
      if (s.chan c).engine.cls ≠ .any ∧ (s.chan c).holdHonour = true then
        s.holdDelivered c (s.chan c).engine.duration
      else s := by
  simp only [State.decide, hk]

end

theorem State.updChan_endFrame (s : State) (c : Chan) (f : Channel → Channel) (p : Parser) :
    (s.updChan c f).endFrame c p = s.updChan c fun ch => { f ch with engine := Engine.idle p } :=
  (State.updChan_updChan s c f fun ch => { ch with engine := Engine.idle p } :)

/-- A length of hold units in sample ticks (R16). -/
theorem holdTicks_eq (d : Byte) : holdTicks d = 16 * (256 * d.toNat) := by
  rw [holdTicks, bitTicks_eq, Nat.mul_comm d.toNat]
  rfl

/-- Settles O42: the check first, and then the kind, the class and what a HOLD says. -/
theorem otherFrameEndsDeliverOrReject : Obligations.OtherFrameEndsDeliverOrReject := by
  rintro s c lo _ e u h rfl he hr hp hu
  have hchan := State.checkLo_chan hu
  have heng : (u.chan c).engine = { e with parser := .checkLo } := by rw [hchan, he]
  have hhonour : (u.chan c).holdHonour = (s.chan c).flags.getLsbD 5 := by rw [hchan]; rfl
  rw [exec_frameEnd_of_hears h he hr hp hu]
  refine ⟨fun hcheck => by rw [if_neg hcheck], fun hcheck => ?_⟩
  rw [if_pos hcheck]
  have hk : ∀ k, ctrlKind e.ctrl = k → ctrlKind (u.chan c).engine.ctrl = k := fun k hk => by
    rw [heng]
    exact hk
  refine ⟨fun hack hown => ?_, fun hnak hown => ?_, fun hidle => ?_, fun hhold hcls hset hd => ?_,
    fun hhold hcls hset hd => ?_⟩
  · rw [State.decide_of_ack (hk _ hack), heng, if_pos hown]
    rfl
  · rw [State.decide_of_nak (hk _ hnak), heng, if_pos hown]
    rfl
  · have hkeep : u.decide c = u := by
      rcases hidle with ⟨hack | hnak, hcls⟩ | ⟨hhold, hoff⟩
      · rw [State.decide_of_ack (hk _ hack), heng, if_neg hcls]
      · rw [State.decide_of_nak (hk _ hnak), heng, if_neg hcls]
      · rw [State.decide_of_hold (hk _ hhold), heng, hhonour, if_neg]
        rintro ⟨hcls, hset⟩
        rcases hoff with hany | hclear
        · exact hcls hany
        · rw [hclear] at hset; cases hset
    rw [hkeep]
    rfl
  · rw [State.decide_of_hold (hk _ hhold), heng, hhonour, if_pos ⟨hcls, hset⟩, State.holdDelivered,
      if_neg hd]
    refine congrArg (fun t => Host.Outcome.next (State.settle t)) ?_
    calc _ = State.raise ((u.updChan c fun ch =>
              { ch with holdTimer := some (holdTicks e.duration) }).endFrame c .hunt) .holdIn := rfl
      _ = _ := by
        rw [State.updChan_endFrame, holdTicks_eq, hu]
        rfl
  · rw [State.decide_of_hold (hk _ hhold), heng, hhonour, if_pos ⟨hcls, hset⟩, State.holdDelivered,
      if_pos hd, State.updChan_endFrame]

end Sys2Proof.Machine

/-!
PROOFS. The transmit side (chapters 6 to 9): deliveries to the sequencer, the readback comparator, the
ends of sending and the timers.
-/
namespace Sys2Proof.Machine

/-! ### Matching deliveries -/

/-- The busy delay in sample ticks (R138). -/
theorem Channel.busyTicks_eq (ch : Channel) :
    bitTicks ch.busyBits = 16 * (256 * max 1 ch.busyDly.toNat) := by
  rw [bitTicks_eq, Channel.busyBits, Nat.mul_comm (max 1 ch.busyDly.toNat)]

/-- The ack timeout in sample ticks (R135). -/
theorem Channel.ackTicks_eq (ch : Channel) :
    bitTicks ch.ackBits = 16 * (16 * max 1 ch.ackTo.toNat) := by
  rw [bitTicks_eq, Channel.ackBits, Nat.mul_comm (max 1 ch.ackTo.toNat)]

/-- A backoff in sample ticks (R133, R156). -/
theorem Channel.backoffTicks_eq (ch : Channel) (own : Byte) (a : Nat) :
    ch.backoffTicks own a =
      16 * (((own.toNat % 8 + a) % 8 + 1) * max 12 ch.backoff.toNat) := bitTicks_eq _

theorem Sequencer.attemptsRemain_iff (q : Sequencer) :
    q.attemptsRemain = true ↔ q.attempts < 1 + q.limit := by
  simp [Sequencer.attemptsRemain]

section
variable {s : State} {c : Chan} {src : Byte} {q : BitVec 3}
  (hmatch : (s.chan c).matchesDelivery src q = true)
include hmatch

theorem State.deliver_ack_of_match
    (h : (s.chan c).sequencer.state = .awaitAck ∨ (s.chan c).sequencer.state = .defer ∨
      (s.chan c).sequencer.state = .backoff ∨ (s.chan c).sequencer.state = .busyWait) :
    s.deliver c false src q = s.claim c .acked := by
  rcases h with h | h | h | h <;> simp only [State.deliver, hmatch, if_true, h, SeqState.lateAck]

theorem State.deliver_nak_of_match (h : (s.chan c).sequencer.state = .awaitAck) :
    s.deliver c true src q =
      if (s.chan c).sequencer.attempts < 1 + (s.chan c).sequencer.limit then
        (s.count c .txNaks).updSeq c fun q => q.wait .busyWait (bitTicks (s.chan c).busyBits)
      else (s.count c .txNaks).claim c .failBusy := by
  simp only [State.deliver, hmatch, if_true, h, Sequencer.attemptsRemain_iff]

end

/-- Settles O45, by the kind of the delivery and the sequencer's state. -/
theorem matchingDeliveriesActOnTheSequencer : Obligations.MatchingDeliveriesActOnTheSequencer := by
  rintro s c _ e es rfl hq hact har
  have hmatch : (s.chan c).matchesDelivery e.dest e.seq = true :=
    (Channel.matchesDelivery_iff _ _ _).mpr ⟨e, es, hq, hact, har, rfl, rfl⟩
  refine ⟨fun hst => ?_, fun hst hlt => ?_, fun hst hle => ?_⟩
  · exact State.deliver_ack_of_match hmatch hst
  · have hdelay : ((s.count c .txNaks).chan c).busyDly = (s.chan c).busyDly := by simp
    rw [State.deliver_nak_of_match hmatch hst, if_pos hlt, State.updSeq]
    refine State.updChan_congr ?_
    rw [Channel.busyTicks_eq, hdelay]
    rfl
  · rw [State.deliver_nak_of_match hmatch hst, if_neg (Nat.not_lt.mpr hle)]

/-! ### The readback comparator -/

theorem Sending.matchesChar_iff (f : Sending) (x : Character) :
    f.matchesChar x = true ↔
      x.framing = false ∧ f.chars[f.index]? = some x.data ∧ x.marker = (f.index == 0) := by
  simp only [Sending.matchesChar, Bool.and_eq_true, Bool.not_eq_true', beq_iff_eq, and_assoc]

theorem Sending.atTest_of_next {f : Sending} (h : f.readBack = true)
    (hlt : f.index + 1 < f.chars.length) :
    f.atTest = { f with index := f.index + 1, ticks := 169, readBack := false } := if_pos ⟨h, hlt⟩

theorem Sending.atTest_of_here {f : Sending} (h : f.readBack = false ∨ f.chars.length ≤ f.index + 1) :
    f.atTest = { f with ticks := max f.ticks 169 } := by
  refine if_neg fun hn => ?_
  rcases h with h | h
  · rw [h] at hn; exact absurd hn.1 Bool.false_ne_true
  · omega

theorem Sending.atTest_verdict (f : Sending) : f.atTest.verdict = f.verdict := by
  unfold Sending.atTest
  split <;> rfl

theorem Sending.atTest_kind (f : Sending) : f.atTest.kind = f.kind := by
  unfold Sending.atTest
  split <;> rfl

/-- A completed character of a SENDING channel goes to the comparator (R46). -/
theorem exec_readbackCharacter_of_sending {s : State} {c : Chan} {f : Sending}
    (hm : (s.chan c).mode ≠ .off) (hrx : (s.chan c).rx = .inCharacter)
    (hl : (s.chan c).lineTx = .sending f) (x : Character) :
    exec (.readbackCharacter c x) s = .next
      ((s.updChan c (Channel.received x)).readback c
        (if 168 ≤ (s.chan c).rxTicks then f else f.atTest) x).settle := by
  have hbefore : s.beforeCharacter c = s := if_neg (by simp [hl])
  have hto : ((s.chan c).sampledToStop = true) = (168 ≤ (s.chan c).rxTicks) := decide_eq_true_eq
  change Host.Outcome.next (s.lineCharacter c x) = _
  rw [State.lineCharacter_of_inCharacter hm hrx, State.receiveCharacter, hbefore]
  simp only [hm, ne_eq, not_false_eq_true, if_true, State.completeCharacter, hl, hto]

section
variable {s : State} {c : Chan} {f0 g : Sending} {x : Character}

theorem State.readback_of_judged (h : (s.chan c).mode = .aborting ∨ f0.verdict ≠ .pending) :
    s.readback c f0 x = s := if_pos h

theorem State.readback_of_pending (hm : (s.chan c).mode ≠ .aborting) (hv : f0.verdict = .pending)
    (hg : g = { f0 with readBack := true }) :
    s.readback c f0 x =
      if g.matchesChar x then
        if g.index + 1 = g.chars.length then
          (s.setLine c (.sending { g with verdict := .clean })).reportClean c g.kind
        else s.setLine c (.sending g)
      else s.setLine c (.sending { g with verdict := .collision }) := by
  subst hg
  exact if_neg (not_or.mpr ⟨hm, not_not_intro hv⟩)

end

theorem exec_missingReadback_of_sending {s : State} {c : Chan} {f : Sending}
    (hl : (s.chan c).lineTx = .sending f) :
    exec (.missingReadback c) s = .next
      (if (s.chan c).mode = .aborting ∨ f.verdict ≠ .pending ∨ f.atTest.readBack then s
      else s.setLine c (.sending { f.atTest with verdict := .collision })) := by
  simp only [exec, execMissingReadback, hl]

theorem exec_missingReadback_of_quiet {s : State} {c : Chan} (hl : (s.chan c).lineTx = .quiet) :
    exec (.missingReadback c) s = .next s := by
  simp only [exec, execMissingReadback, hl]

/-- Settles O47: the moment of the test, then the match; and the missing readback by the readback to
come. -/
theorem readbackFindsCleanEndsAndCollisions : Obligations.ReadbackFindsCleanEndsAndCollisions := by
  refine ⟨?_, fun s c => ⟨fun f hl hm hv => ⟨fun hrb => ?_, fun hrb hlt => ?_, fun hrb hle => ?_⟩,
    fun hno => ?_⟩⟩
  · rintro s c f g x u hoff hrx hl hu
    have hum : (u.chan c).mode = (s.chan c).mode := by
      rw [hu, State.chan_updChan_same]
      rfl
    have hverdict : ∀ p : Prop, ∀ [Decidable p], (if p then f else f.atTest).verdict = f.verdict := by
      intro p _
      split
      · rfl
      · exact f.atTest_verdict
    rw [exec_readbackCharacter_of_sending hoff hrx hl, ← hu]
    refine ⟨fun hm hv hsampled hhere hnext => ?_, fun hj => ?_⟩
    · have hg : g = { (if 168 ≤ (s.chan c).rxTicks then f else f.atTest) with readBack := true } := by
        by_cases ht : 168 ≤ (s.chan c).rxTicks
        · rw [if_pos ht]
          exact hsampled ht
        · rw [if_neg ht]
          by_cases hrb : f.readBack = false ∨ f.chars.length ≤ f.index + 1
          · rw [Sending.atTest_of_here hrb]
            exact hhere (Nat.not_le.mp ht) hrb
          · obtain ⟨hrb1, hrb2⟩ := not_or.mp hrb
            rw [Sending.atTest_of_next (by simpa using hrb1) (Nat.not_le.mp hrb2)]
            exact hnext (Nat.not_le.mp ht) (by simpa using hrb1) (Nat.not_le.mp hrb2)
      have hkind : g.kind = f.kind := by
        rw [hg]
        dsimp only
        split
        · rfl
        · exact f.atTest_kind
      rw [State.readback_of_pending (by rwa [hum]) ((hverdict _).trans hv) hg, ← hkind]
      refine ⟨fun h1 h2 h3 => ⟨fun hmore => ?_, fun hlast => ?_⟩, fun hbad => ?_⟩
      · rw [if_pos ((g.matchesChar_iff x).mpr ⟨h1, h2, h3⟩), if_neg hmore]
        rfl
      · rw [if_pos ((g.matchesChar_iff x).mpr ⟨h1, h2, h3⟩), if_pos hlast]
        rfl
      · rw [if_neg]
        · rfl
        · rw [Sending.matchesChar_iff]
          rintro ⟨h1, h2, h3⟩
          rcases hbad with h | h | h
          · rw [h] at h1; cases h1
          · exact h h2
          · exact h h3
    · rw [State.readback_of_judged]
      rw [hum, hverdict]
      exact hj
  · rw [exec_missingReadback_of_sending hl, Sending.atTest_of_here (.inl hrb),
      if_neg (by simp [hm, hv, hrb])]
    rfl
  · rw [exec_missingReadback_of_sending hl, Sending.atTest_of_next hrb hlt,
      if_neg (by simp [hm, hv])]
    rfl
  · rw [exec_missingReadback_of_sending hl, Sending.atTest_of_here (.inr hle), if_pos (by simp [hrb])]
  · rcases hno with hl | hm | ⟨f, hl, hv⟩
    · exact exec_missingReadback_of_quiet hl
    · cases hl : (s.chan c).lineTx with
      | quiet => exact exec_missingReadback_of_quiet hl
      | sending f => rw [exec_missingReadback_of_sending hl, if_pos (.inl hm)]
    · rw [exec_missingReadback_of_sending hl, if_pos (.inr (.inl hv))]

/-! ### Clean ends -/

theorem State.attemptClean_of_cons {s : State} {c : Chan} {e : TxEntry} {es : List TxEntry}
    (h : (s.chan c).txq = e :: es) :
    s.attemptClean c =
      if e.ar then s.updSeq c fun q => q.wait .awaitAck (bitTicks (s.chan c).ackBits)
      else s.claim c .sent := by
  simp only [State.attemptClean, h]

theorem State.flowClean_of_some {s : State} {c : Chan} {f : FlowFrame} (h : (s.chan c).flow = some f) :
    s.flowClean c = (s.updChan c (Channel.flowCleanIn s.poolIsLow f)).raise .holdOut := by
  simp only [State.flowClean, h]

theorem State.poolIsLow_of_low {s : State} (h : s.pool = .low) : s.poolIsLow = true := by
  simp [State.poolIsLow, h]

theorem State.poolIsLow_of_normal {s : State} (h : s.pool = .normal) : s.poolIsLow = false := by
  simp [State.poolIsLow, h]

section
variable {f : FlowFrame}

/-- A HOLD that ends cleanly while the monitor is LOW (R155). -/
theorem Channel.flowCleanIn_hold_low (h : f.resume = false) :
    Channel.flowCleanIn true f = fun ch =>
      { ch with
        flow := none, holdOutstanding := true, refresh := some (16 * (256 * f.d.toNat)) } := by
  funext ch
  simp only [Channel.flowCleanIn, h, holdTicks_eq]

/-- A HOLD that ends cleanly while the monitor is NORMAL (R155). -/
theorem Channel.flowCleanIn_hold_normal (h : f.resume = false) :
    Channel.flowCleanIn false f = fun ch =>
      { ch with flow := some (newFlow true), holdOutstanding := true } := by
  funext ch
  simp only [Channel.flowCleanIn, h]
  rfl

/-- A RESUME that ends cleanly while the monitor is NORMAL (R155). -/
theorem Channel.flowCleanIn_resume_normal (h : f.resume = true) :
    Channel.flowCleanIn false f = fun ch => { ch with flow := none, holdOutstanding := false } := by
  funext ch
  simp only [Channel.flowCleanIn, h]

/-- A RESUME that ends cleanly while the monitor is LOW (R155). -/
theorem Channel.flowCleanIn_resume_low (h : f.resume = true) :
    Channel.flowCleanIn true f = fun ch =>
      { ch with
        flow :=
          if ch.flags.getLsbD 4 = true ∧ 0x01 ≤ ch.ownAddr.toNat ∧ ch.ownAddr.toNat ≤ 0xEF then
            some (newFlow false)
          else none
        holdOutstanding := false } := by
  funext ch
  have hown : (ch.holdSend && ch.hasOwn) = true ↔
      ch.flags.getLsbD 4 = true ∧ 0x01 ≤ ch.ownAddr.toNat ∧ ch.ownAddr.toNat ≤ 0xEF := by
    rw [Bool.and_eq_true, Channel.hasOwn_iff]
    rfl
  simp only [Channel.flowCleanIn, h, hown]
  rfl

end

/-- Settles O48, by the source; a flow frame's by its kind and the monitor's state. -/
theorem cleanEndsAreReportedToTheSource : Obligations.CleanEndsAreReportedToTheSource := by
  refine ⟨fun s c e es hq => ⟨fun har => ?_, fun har => ?_⟩, fun s c => rfl,
    fun s c f hf => ⟨fun hr hp => ?_, fun hr hp => ?_, fun hr hp => ?_, fun hr hp => ?_⟩⟩
  · rw [State.reportClean, State.attemptClean_of_cons hq, if_neg (by simp [har])]
  · rw [State.reportClean, State.attemptClean_of_cons hq, if_pos har, State.updSeq]
    refine State.updChan_congr ?_
    rw [Channel.ackTicks_eq]
    rfl
  · rw [State.reportClean, State.flowClean_of_some hf, State.poolIsLow_of_low hp,
      Channel.flowCleanIn_hold_low hr]
    rfl
  · rw [State.reportClean, State.flowClean_of_some hf, State.poolIsLow_of_normal hp,
      Channel.flowCleanIn_hold_normal hr]
    rfl
  · rw [State.reportClean, State.flowClean_of_some hf, State.poolIsLow_of_normal hp,
      Channel.flowCleanIn_resume_normal hr]
    rfl
  · rw [State.reportClean, State.flowClean_of_some hf, State.poolIsLow_of_low hp,
      Channel.flowCleanIn_resume_low hr]
    rfl

/-! ### Collisions -/

theorem exec_lineTransmitterQuiet_of_sending {s : State} {c : Chan} {f : Sending}
    (hl : (s.chan c).lineTx = .sending f) :
    exec (.lineTransmitterQuiet c) s = .next
      (if f.verdict = .clean ∧ (s.chan c).mode ≠ .aborting then (s.setLine c .quiet).settle
      else s) := by
  simp only [exec, execLineTransmitterQuiet, hl]

theorem exec_lineTransmitterQuiet_of_quiet {s : State} {c : Chan} (hl : (s.chan c).lineTx = .quiet) :
    exec (.lineTransmitterQuiet c) s = .next s := by
  simp only [exec, execLineTransmitterQuiet, hl]

theorem exec_collisionReported_of_sending {s : State} {c : Chan} {f : Sending}
    (hl : (s.chan c).lineTx = .sending f) :
    exec (.collisionReported c) s = .next
      (if f.verdict = .collision ∧ (s.chan c).mode ≠ .aborting then
        ((s.setLine c .quiet).reportCollision c f.kind).settle
      else s) := by
  simp only [exec, execCollisionReported, hl]

theorem exec_collisionReported_of_quiet {s : State} {c : Chan} (hl : (s.chan c).lineTx = .quiet) :
    exec (.collisionReported c) s = .next s := by
  simp only [exec, execCollisionReported, hl]

theorem State.attemptCollision_of_cons {s : State} {c : Chan} {e : TxEntry} {es : List TxEntry}
    (h : (s.chan c).txq = e :: es) :
    s.attemptCollision c =
      if (s.chan c).sequencer.attempts < 1 + (s.chan c).sequencer.limit then
        (s.count c .txCollisions).updSeq c fun q =>
          q.wait .backoff ((s.chan c).backoffTicks e.src (s.chan c).sequencer.attempts)
      else (s.count c .txCollisions).claim c .failCollision := by
  simp only [State.attemptCollision, h, Sequencer.attemptsRemain_iff]

section
variable {s : State} {c : Chan} {f : FlowFrame} (hf : (s.chan c).flow = some f)
include hf

/-- A HOLD that has become needless (R156). -/
theorem State.flowCollision_of_needless_hold (hr : f.resume = false) (hp : s.pool = .normal) :
    s.flowCollision c =
      s.updChan c fun ch =>
        { ch with flow := if ch.holdOutstanding then some (newFlow true) else none } := by
  simp only [State.flowCollision, hf, hr, State.poolIsLow_of_normal hp]
  rfl

/-- A RESUME that has become wrong (R156). -/
theorem State.flowCollision_of_wrong_resume (hr : f.resume = true) (hp : s.pool = .low) :
    s.flowCollision c = s.updChan c fun ch => { ch with flow := some (newFlow false) } := by
  simp only [State.flowCollision, hf, hr, State.poolIsLow_of_low hp]
  rfl

/-- A flow frame that the monitor's state still asks for (R156). -/
theorem State.flowCollision_of_wanted
    (h : (f.resume = false ∧ s.pool = .low) ∨ (f.resume = true ∧ s.pool = .normal)) :
    s.flowCollision c =
      if f.attempts < 1 + f.limit then
        s.updChan c fun ch =>
          { ch with
            flow := some
              { f with phase := .backoff, timer := some (ch.backoffTicks f.own f.attempts) } }
      else s.dropFlow c := by
  rcases h with ⟨hr, hp⟩ | ⟨hr, hp⟩
  · simp only [State.flowCollision, hf, hr, State.poolIsLow_of_low hp]
  · simp only [State.flowCollision, hf, hr, State.poolIsLow_of_normal hp]

end

/-- Settles O49: both events by the verdict and the channel's state; a collision by its source. -/
theorem endsOfSendingReportCollisions : Obligations.EndsOfSendingReportCollisions := by
  refine ⟨fun s c => ⟨?_, fun hno => ?_, fun hno => ?_⟩, ?_, fun s c f hf => ⟨fun hr hp ho => ?_,
    fun hr hp ho => ?_, fun hr hp => ?_, fun hw => ⟨fun hlt => ?_, fun hle => ?_⟩⟩⟩
  · rintro f _ hl hm rfl
    rw [exec_lineTransmitterQuiet_of_sending hl, exec_collisionReported_of_sending hl]
    refine ⟨fun hv => ?_, fun hv hk => ?_, fun hv hk => ?_, fun hv hk => ?_⟩
    · rw [if_pos ⟨hv, hm⟩]
      rfl
    · rw [if_pos ⟨hv, hm⟩, hk]
      rfl
    · rw [if_pos ⟨hv, hm⟩, hk]
      rfl
    · rw [if_pos ⟨hv, hm⟩, hk]
      rfl
  · cases hl : (s.chan c).lineTx with
    | quiet => exact exec_lineTransmitterQuiet_of_quiet hl
    | sending g =>
      rw [exec_lineTransmitterQuiet_of_sending hl, if_neg]
      rintro ⟨hv, hm⟩
      rcases hno with h | h | ⟨f, h, hf⟩
      · rw [h] at hl; cases hl
      · exact hm h
      · rw [h] at hl
        cases hl
        exact hf hv
  · cases hl : (s.chan c).lineTx with
    | quiet => exact exec_collisionReported_of_quiet hl
    | sending g =>
      rw [exec_collisionReported_of_sending hl, if_neg]
      rintro ⟨hv, hm⟩
      rcases hno with h | h | ⟨f, h, hf⟩
      · rw [h] at hl; cases hl
      · exact hm h
      · rw [h] at hl
        cases hl
        exact hf hv
  · rintro s c _ e es rfl hq
    rw [State.attemptCollision_of_cons hq]
    refine ⟨fun hlt => ?_, fun hle => ?_⟩
    · rw [if_pos hlt, Channel.backoffTicks_eq]
      rfl
    · rw [if_neg (Nat.not_lt.mpr hle)]
  · rw [State.flowCollision_of_needless_hold hf hr hp]
    refine State.updChan_congr ?_
    rw [ho]
    rfl
  · rw [State.flowCollision_of_needless_hold hf hr hp]
    refine State.updChan_congr ?_
    rw [ho]
    rfl
  · rw [State.flowCollision_of_wrong_resume hf hr hp]
  · rw [State.flowCollision_of_wanted hf hw, if_pos hlt]
    simp only [Channel.backoffTicks_eq]
  · rw [State.flowCollision_of_wanted hf hw, if_neg (Nat.not_lt.mpr hle)]
    rfl

/-! ### Timers -/

section
variable {s : State} {c : Chan}

theorem exec_backoffExpiry (s : State) (c : Chan) :
    exec (.backoffExpiry c) s =
      .next (if (s.chan c).sequencer.state = .backoff then s.updSeq c Sequencer.toDefer else s) := rfl

theorem exec_busyExpiry (s : State) (c : Chan) :
    exec (.busyExpiry c) s =
      .next (if (s.chan c).sequencer.state = .busyWait then s.updSeq c Sequencer.toDefer else s) := rfl

theorem exec_txAckTimeouts (s : State) (c : Chan) :
    exec (.txAckTimeouts c) s =
      .next (if (s.chan c).sequencer.state = .awaitAck then (s.ackTimeout c).settle else s) := rfl

theorem State.ackTimeout_eq (s : State) (c : Chan) :
    s.ackTimeout c =
      if (s.chan c).sequencer.attempts < 1 + (s.chan c).sequencer.limit then
        (s.count c .txAckTimeouts).updSeq c Sequencer.toDefer
      else (s.count c .txAckTimeouts).claim c .failNoAck :=
  ite_congr (propext (Sequencer.attemptsRemain_iff _)) (fun _ => rfl) fun _ => rfl

theorem exec_refreshExpiry (s : State) (c : Chan) :
    exec (.refreshExpiry c) s =
      .next (if (s.chan c).refresh.isSome then
        s.updChan c fun ch => { ch with refresh := none, flow := some (newFlow false) }
      else s) := rfl

theorem exec_flowBackoffExpiry_of_some {f : FlowFrame} (h : (s.chan c).flow = some f) :
    exec (.flowBackoffExpiry c) s =
      .next (if f.phase = .backoff then
        s.updChan c fun ch => { ch with flow := some { f with phase := .waiting, timer := none } }
      else s) := by
  simp only [exec, execFlowBackoffExpiry, h]

theorem exec_flowBackoffExpiry_of_none (h : (s.chan c).flow = none) :
    exec (.flowBackoffExpiry c) s = .next s := by
  simp only [exec, execFlowBackoffExpiry, h]

end

/-- Settles O53, timer by timer. -/
theorem timersExpire : Obligations.TimersExpire := by
  refine ⟨?_, fun s c => ⟨rfl, fun hr => ?_, fun hr => ?_, fun f hf hp => ?_, fun hno => ?_⟩⟩
  · rintro s c _ back rfl hback
    obtain rfl : back = fun ch =>
        { ch with sequencer := { ch.sequencer with state := .defer, timer := none } } := funext hback
    rw [exec_backoffExpiry, exec_busyExpiry, exec_txAckTimeouts, State.ackTimeout_eq]
    refine ⟨fun h => ?_, fun h => ?_, fun h => ?_, fun h => ?_, fun h hlt => ?_, fun h hle => ?_,
      fun h => ?_⟩
    · rw [if_pos h]; rfl
    · rw [if_neg h]
    · rw [if_pos h]; rfl
    · rw [if_neg h]
    · rw [if_pos h, if_pos hlt]; rfl
    · rw [if_pos h, if_neg (Nat.not_lt.mpr hle)]
    · rw [if_neg h]
  · rw [exec_refreshExpiry, if_pos (Option.isSome_iff_ne_none.mpr hr)]
  · rw [exec_refreshExpiry, if_neg (by simp [hr])]
  · rw [exec_flowBackoffExpiry_of_some hf, if_pos hp]
  · cases hf : (s.chan c).flow with
    | none => exact exec_flowBackoffExpiry_of_none hf
    | some f => rw [exec_flowBackoffExpiry_of_some hf, if_neg (hno f hf)]

end Sys2Proof.Machine

/-!
PROOFS. The starts of frames (R82, R131, R154): a response, a flow frame and a data attempt.
-/
namespace Sys2Proof.Machine

/-- Line idle time raised to the spacing, as a start that a command names says of it (log 3). -/
theorem Channel.idleAtLeast_eq (ch : Channel) :
    ch.idleAtLeast ch.spacingBits =
      { ch with idle := max ch.idle (max 24 (min 1023 ch.spacing.toNat)) } := rfl

/-! ### Responses -/

section
variable {s : State} {c : Chan}

theorem exec_responseStart_of_none (h : (s.chan c).response = none) :
    exec (.responseStart c) s = .next s := by
  simp only [exec, execResponseStart, h]

theorem exec_responseStart_of_some {r : Response} (h : (s.chan c).response = some r) :
    exec (.responseStart c) s = .next
      (if (s.chan c).responseReady then
        if (s.chan c).hasOwn then
          ((s.updChan c fun ch => { ch with response := none }).startFrame c .response
            (responseChars (s.chan c).ownAddr r)).settle
        else (s.dropResponse c).settle
      else s) := by
  simp only [exec, execResponseStart, h]

end

/-- Settles O50, by whether the response can be selected and then by the own address. -/
theorem responseStartsOrIsDropped : Obligations.ResponseStartsOrIsDropped := by
  rintro s c _ rfl
  refine ⟨fun r hr hl hm => ⟨fun h1 h2 => ?_, fun hno => ?_⟩, fun hno => ?_⟩
  · have hready : (s.chan c).responseReady = true :=
      (Channel.responseReady_iff _).mpr ⟨hm, hl, by simp [hr]⟩
    rw [exec_responseStart_of_some hr, if_pos hready, if_pos ((Channel.hasOwn_iff _).mpr ⟨h1, h2⟩),
      State.startFrame, State.setLine, State.updChan_updChan]
    exact congrArg (fun t => Host.Outcome.next (State.settle t)) (State.updChan_congr rfl)
  · have hready : (s.chan c).responseReady = true :=
      (Channel.responseReady_iff _).mpr ⟨hm, hl, by simp [hr]⟩
    rw [exec_responseStart_of_some hr, if_pos hready,
      if_neg (by rw [(Channel.hasOwn_false_iff _).mpr hno]; exact Bool.false_ne_true),
      State.dropResponse_of_some hr]
  · cases hr : (s.chan c).response with
    | none => exact exec_responseStart_of_none hr
    | some r =>
      rw [exec_responseStart_of_some hr, if_neg]
      rw [Channel.responseReady_iff]
      rintro ⟨hm, hl, -⟩
      rcases hno with h | h | h | h
      · rw [h] at hr; cases hr
      · exact h hl
      · simp [h] at hm
      · simp [h] at hm

/-! ### Flow frames -/

theorem exec_flowFrameStart_of_some {s : State} {c : Chan} {f : FlowFrame}
    (h : (s.chan c).flow = some f) :
    exec (.flowFrameStart c) s = .next
      (if (s.chan c).flowReady then
        if (s.chan c).hasOwn then
          (s.updChan c fun ch =>
            { (ch.idleAtLeast ch.spacingBits) with
              flow := some (f.started ch.retryLimit ch.ownAddr
                (if f.resume then 0 else s.holdDuration)) }).startFrame c .flow
            (flowChars (s.chan c).ownAddr (if f.resume then 0 else s.holdDuration))
        else ((s.updChan c fun ch => ch.idleAtLeast ch.spacingBits).dropFlow c).settle
      else s) := by
  simp only [exec, execFlowFrameStart, h]

/-- Settles O51, by whether the flow slot can be selected and then by the own address. -/
theorem flowFrameStartsOrIsDropped : Obligations.FlowFrameStartsOrIsDropped := by
  rintro s c _ f d rfl hf hd
  have hd' : (if f.resume then 0 else s.holdDuration) = d := hd.symm
  rw [exec_flowFrameStart_of_some hf, hd']
  refine ⟨fun hm hl hr hp hhunt hrun => ?_, fun hno => ?_⟩
  · have hready : (s.chan c).flowReady = true :=
      (Channel.flowReady_iff _).mpr ⟨hm, hl, hr, ⟨f, hf, hp⟩, hhunt, hrun⟩
    rw [if_pos hready]
    refine ⟨fun h1 h2 => ?_, fun hown => ?_⟩
    · rw [if_pos ((Channel.hasOwn_iff _).mpr ⟨h1, h2⟩), State.startFrame, State.setLine,
        State.updChan_updChan]
      exact congrArg Host.Outcome.next (State.updChan_congr rfl)
    · rw [if_neg (by rw [(Channel.hasOwn_false_iff _).mpr hown]; exact Bool.false_ne_true)]
      rfl
  · rw [if_neg]
    rw [Channel.flowReady_iff]
    rintro ⟨hm, hl, hr, ⟨g, hg, hp⟩, hhunt, hrun⟩
    obtain rfl : f = g := Option.some.inj (hf.symm.trans hg)
    rcases hno with h | h | h | h | h | h | h
    · exact h hp
    · exact h hl
    · exact h hr
    · exact h hhunt
    · rw [h] at hrun; cases hrun
    · simp [h] at hm
    · simp [h] at hm

/-! ### Attempts -/

theorem exec_attemptStart_of_cons {s : State} {c : Chan} {e : TxEntry} {es : List TxEntry}
    (h : (s.chan c).txq = e :: es) :
    exec (.attemptStart c) s = .next
      (if (s.chan c).dataReady then
        ((if (s.chan c).sequencer.attempts = 0 then s.setOwner e.head (.activeTx c) else s).updChan c
          fun ch =>
            { (ch.idleAtLeast ch.spacingBits) with
              txq := activateHead ch.txq
              sequencer := ch.sequencer.started ch.retryLimit }).startFrame c .data (s.dataChars e)
      else s) := by
  change execAttemptStart c s = _
  unfold execAttemptStart
  dsimp only
  split
  · next hnil => rw [hnil] at h; cases h
  · next e' es' hcons =>
    obtain ⟨rfl, rfl⟩ : e' = e ∧ es' = es := by simpa [hcons] using h
    rfl

/-- Settles O52, by whether the sequencer can be selected. -/
theorem attemptSendsTheHeadEntry : Obligations.AttemptSendsTheHeadEntry := by
  rintro s c _ e es u rfl hq hfirst hlater
  rw [exec_attemptStart_of_cons hq]
  refine ⟨fun hst hl hr hf hhunt hrun ht hm => ?_, fun hno => ?_⟩
  · have hready : (s.chan c).dataReady = true :=
      (Channel.dataReady_iff _).mpr ⟨hl, hr, hf, hhunt, hrun, ht, hst, e, es, hq, hm⟩
    have hu : (if (s.chan c).sequencer.attempts = 0 then s.setOwner e.head (.activeTx c) else s) = u := by
      split
      · next h0 => exact (hfirst h0).symm
      · next h0 => exact (hlater h0).symm
    have huq : (u.chan c).txq = e :: es := by
      rw [← hu]
      split <;> exact hq
    rw [if_pos hready, hu, State.startFrame, State.setLine, State.updChan_updChan]
    refine congrArg Host.Outcome.next (State.updChan_congr ?_)
    dsimp only
    rw [huq]
    rfl
  · rw [if_neg]
    rw [Channel.dataReady_iff]
    rintro ⟨hl, hr, hf, hhunt, hrun, ht, hst, e', es', hq', hm⟩
    obtain ⟨rfl, rfl⟩ : e = e' ∧ es = es' := by simpa [hq] using hq'
    rcases hno with h | h | h | ⟨g, hg, hp⟩ | h | h | h | h | h | ⟨h, hact⟩
    · exact h hst
    · exact h hl
    · exact h hr
    · exact hf g hg hp
    · exact h hhunt
    · rw [h] at hrun; cases hrun
    · exact h ht
    · simp [h] at hm
    · simp [h] at hm
    · simp [h, hact] at hm

end Sys2Proof.Machine

/-!
PROOFS. The law of a channel in three parts that its operations keep one by one: the flow side, with the
pool monitor's state; the transmit queue, sequencer, response and receiver; and the receive engine.
-/
namespace Sys2Proof.Machine

/-! ### The three parts of a channel's law -/

/-- The law of the flow side under the pool monitor's state: FlowLaw, that the slot follows the pool, and
that the side is at rest in OFF and ABORTING. -/
structure Channel.FlowSide (p : Pool) (ch : Channel) : Prop where
  law : ch.FlowLaw
  follows : ∀ g, ch.flow = some g → g.phase ≠ .sending → (g.resume = true ↔ p = .normal)
  low : ch.refresh.isSome = true → p = .low
  rest : ch.mode = .off ∨ ch.mode = .aborting →
    ch.flow = none ∧ ch.holdOutstanding = false ∧ ch.refresh = none

/-- The law of the queue, the sequencer, the line transmitter, the response slot and the receiver. -/
structure Channel.Core (ch : Channel) : Prop where
  queue : ch.QueueLaw
  attempts : ch.sequencer.AttemptLaw
  rest : ch.mode = .off ∨ ch.mode = .aborting → ch.response = none ∧ ch.holdTimer = none
  off : ch.mode = .off → ch.lineTx = .quiet ∧ ch.sequencer.state = .idle
  aborting : ch.mode = .aborting → ch.sequencer.state = .idle ∨ ch.sequencer.state = .attempt ∨
    (ch.sequencer.state = .defer ∧ ch.headActive = false)
  line : ch.LineLaw
  receiver : ch.ReceiverLaw

/-- The law of the engine: its own, and that it holds no frame in OFF and ABORTING. -/
structure Channel.EngineSide (ch : Channel) : Prop where
  law : ch.engine.Law
  rest : ch.mode = .off ∨ ch.mode = .aborting → ch.engine = .idle .hunt

theorem Channel.law_iff (p : Pool) (ch : Channel) :
    (ch.Law ∧ (∀ g, ch.flow = some g → g.phase ≠ .sending → (g.resume = true ↔ p = .normal)) ∧
      (ch.refresh.isSome = true → p = .low)) ↔ ch.FlowSide p ∧ ch.Core ∧ ch.EngineSide := by
  constructor
  · rintro ⟨⟨hengine, hqueue, hattempts, ⟨hrest, hoff, haborting⟩, hline, hreceiver, hflow⟩, hfollows, hlow⟩
    refine ⟨⟨hflow, hfollows, hlow, fun hm => ?_⟩, ⟨hqueue, hattempts, fun hm => ?_, hoff, haborting,
      hline, hreceiver⟩, ⟨hengine, fun hm => (hrest hm).1⟩⟩
    · obtain ⟨-, -, hf, hh, hr, -⟩ := hrest hm
      exact ⟨hf, hh, hr⟩
    · obtain ⟨-, hresp, -, -, -, ht⟩ := hrest hm
      exact ⟨hresp, ht⟩
  · rintro ⟨hf, hc, he⟩
    refine ⟨⟨he.law, hc.queue, hc.attempts, ⟨fun hm => ?_, hc.off, hc.aborting⟩, hc.line, hc.receiver,
      hf.law⟩, hf.follows, hf.low⟩
    obtain ⟨hflow, hhold, hrefresh⟩ := hf.rest hm
    obtain ⟨hresp, htimer⟩ := hc.rest hm
    exact ⟨he.rest hm, hresp, hflow, hhold, hrefresh, htimer⟩

/-! ### What each part looks at -/

/-- What the law of the flow side looks at. -/
def Channel.flowView (ch : Channel) :=
  (ch.lineTx, ch.mode, ch.flow, ch.holdOutstanding, ch.refresh)

/-- What the law of the queue, the sequencer, the response slot and the receiver looks at. -/
def Channel.coreView (ch : Channel) :=
  (ch.txq, ch.sequencer, ch.mode, ch.response, ch.holdTimer, ch.lineTx, ch.rx)

/-- What the law of the engine looks at. -/
def Channel.engineView (ch : Channel) := (ch.engine, ch.mode)

theorem Channel.FlowSide.congr {p : Pool} {a b : Channel} (h : a.FlowSide p)
    (hv : b.flowView = a.flowView) : b.FlowSide p := by
  simp only [Channel.flowView, Prod.mk.injEq] at hv
  obtain ⟨hline, hmode, hflow, hhold, hrefresh⟩ := hv
  obtain ⟨hlaw, hfollows, hlow, hrest⟩ := h
  refine ⟨?_, ?_, ?_, ?_⟩
  · rw [Channel.FlowLaw, hline, hmode, hflow, hhold, hrefresh]; exact hlaw
  · rw [hflow]; exact hfollows
  · rw [hrefresh]; exact hlow
  · rw [hmode, hflow, hhold, hrefresh]; exact hrest

theorem Channel.headActive_congr {a b : Channel} (h : b.txq = a.txq) : b.headActive = a.headActive := by
  rw [Channel.headActive, h]; rfl

theorem Channel.Core.congr {a b : Channel} (h : a.Core) (hv : b.coreView = a.coreView) : b.Core := by
  simp only [Channel.coreView, Prod.mk.injEq] at hv
  obtain ⟨hq, hseq, hmode, hresp, htimer, hline, hrx⟩ := hv
  have hhead := Channel.headActive_congr hq
  obtain ⟨hqueue, hatt, hrest, hoff, haborting, hlaw, hreceiver⟩ := h
  refine ⟨?_, ?_, ?_, ?_, ?_, ?_, ?_⟩
  · rw [Channel.QueueLaw, hq, hseq, hhead]; exact hqueue
  · rw [hseq]; exact hatt
  · rw [hmode, hresp, htimer]; exact hrest
  · rw [hmode, hline, hseq]; exact hoff
  · rw [hmode, hseq, hhead]; exact haborting
  · rw [Channel.LineLaw, hline, hseq]; exact hlaw
  · rw [Channel.ReceiverLaw, hresp, hrx]; exact hreceiver

theorem Channel.EngineSide.congr {a b : Channel} (h : a.EngineSide)
    (hv : b.engineView = a.engineView) : b.EngineSide := by
  simp only [Channel.engineView, Prod.mk.injEq] at hv
  obtain ⟨hengine, hmode⟩ := hv
  exact ⟨by rw [hengine]; exact h.law, by rw [hmode, hengine]; exact h.rest⟩

/-! ### The flow side under the pool monitor -/

theorem Channel.inService_iff (ch : Channel) :
    ch.inService = true ↔ ch.mode = .run ∨ ch.mode = .stopping := by
  simp [Channel.inService]

theorem Channel.inService_false_iff (ch : Channel) :
    ch.inService = false ↔ ch.mode = .off ∨ ch.mode = .aborting := by
  cases h : ch.mode <;> simp [Channel.inService, h]

/-- A slot whose frame is not on the line can be filled anew while the refresh timer stops: the frame
placed waits, and a RESUME needs the hold-outstanding flag. -/
theorem Channel.FlowLaw.placed {ch : Channel} (h : ch.FlowLaw)
    (hslot : ∀ g, ch.flow = some g → g.phase ≠ .sending) {r : Bool}
    (hr : r = true → ch.holdOutstanding = true) {q : Option Nat} (hq : q = none) :
    Channel.FlowLaw { ch with flow := some (.fresh r), refresh := q } := by
  obtain ⟨hsends, -, -⟩ := h
  refine ⟨fun f hf hk hv hm => ?_, fun g hg => ?_, by simp [hq]⟩
  · obtain ⟨g, hg, hphase⟩ := hsends f hf hk hv hm
    exact absurd hphase (hslot g hg)
  · cases hg
    exact ⟨nofun, by simp [FlowFrame.fresh], Nat.zero_le _, by simp [FlowFrame.fresh],
      by simp [FlowFrame.fresh], hr⟩

theorem Channel.FlowLaw.emptied {ch : Channel} (h : ch.FlowLaw)
    (hslot : ∀ g, ch.flow = some g → g.phase ≠ .sending) {q : Option Nat} (hq : q = none) :
    Channel.FlowLaw { ch with flow := none, refresh := q } := by
  obtain ⟨hsends, -, -⟩ := h
  refine ⟨fun f hf hk hv hm => ?_, nofun, by simp [hq]⟩
  obtain ⟨g, hg, hphase⟩ := hsends f hf hk hv hm
  exact absurd hphase (hslot g hg)

theorem Channel.FlowLaw.refreshed {ch : Channel} (h : ch.FlowLaw) :
    Channel.FlowLaw { ch with refresh := none } := by
  obtain ⟨hsends, hslot, -⟩ := h
  exact ⟨hsends, hslot, nofun⟩

/-- Entry to LOW takes the flow side from following NORMAL to following LOW. -/
theorem Channel.FlowSide.enterLow {ch : Channel} (h : ch.FlowSide .normal) :
    ch.enterLow.FlowSide .low := by
  have hnone : ch.refresh = none := by
    cases hr : ch.refresh with
    | none => rfl
    | some n => exact absurd (h.low (by simp [hr])) nofun
  -- the slot keeps what the table of entry to LOW does not change
  have hkeep : (∀ g, ch.flow = some g → g.phase ≠ .sending → g.resume = false) → ch.FlowSide .low :=
    fun hk => ⟨h.law, fun g hg hp => by simp [hk g hg hp], fun _ => rfl, h.rest⟩
  have hplace : ch.inService = true → (∀ g, ch.flow = some g → g.phase ≠ .sending) →
      Channel.FlowSide .low { ch with flow := some (.fresh false) } := by
    intro hin hslot
    have hlaw := h.law.placed hslot (r := false) nofun hnone
    refine ⟨hlaw, fun g hg _ => ?_, fun _ => rfl, fun hm => ?_⟩
    · cases hg; simp [FlowFrame.fresh]
    · exact absurd ((ch.inService_false_iff).mpr hm) (by simp [hin])
  unfold Channel.enterLow
  split
  · next hin =>
    split
    · next hf =>
      split
      · exact hplace hin (by simp [hf])
      · exact hkeep (by simp [hf])
    · next f hf =>
      split
      · next hr =>
        simp only [Bool.and_eq_true, bne_iff_ne] at hr
        exact hplace hin (by simpa [hf] using hr.2)
      · next hr =>
        simp only [Bool.and_eq_true, bne_iff_ne, not_and, Classical.not_not] at hr
        refine hkeep fun g hg hp => ?_
        obtain rfl := Option.some.inj (hf.symm.trans hg)
        exact Bool.eq_false_iff.mpr fun hres => hp (hr hres)
  · next hin =>
    have hrest := h.rest ((ch.inService_false_iff).mp (Bool.eq_false_iff.mpr hin))
    exact hkeep (by simp [hrest.1])

/-- Entry to NORMAL takes the flow side from following LOW to following NORMAL. -/
theorem Channel.FlowSide.enterNormal {ch : Channel} (h : ch.FlowSide .low) :
    ch.enterNormal.FlowSide .normal := by
  have hin : ch.holdOutstanding = true → ¬ (ch.mode = .off ∨ ch.mode = .aborting) := fun hh hm => by
    simp [(h.rest hm).2.1] at hh
  have hkeep : (∀ g, ch.flow = some g → g.phase ≠ .sending → g.resume = true) →
      Channel.FlowSide .normal { ch with refresh := none } :=
    fun hk => ⟨h.law.refreshed, fun g hg hp => by simp [hk g hg hp], nofun,
      fun hm => ⟨(h.rest hm).1, (h.rest hm).2.1, rfl⟩⟩
  have hplace : ch.holdOutstanding = true → (∀ g, ch.flow = some g → g.phase ≠ .sending) →
      Channel.FlowSide .normal { ch with flow := some (.fresh true), refresh := none } :=
    fun hh hslot => ⟨h.law.placed hslot (fun _ => hh) rfl, fun g hg _ => by cases hg; simp [FlowFrame.fresh],
      nofun, fun hm => absurd hm (hin hh)⟩
  unfold Channel.enterNormal
  split
  · next hf =>
    split
    · next hh => exact hplace hh (by simp [hf])
    · exact hkeep (by simp [hf])
  · next f hf =>
    split
    · next hr =>
      simp only [Bool.or_eq_true, beq_iff_eq] at hr
      refine hkeep fun g hg hp => ?_
      obtain rfl := Option.some.inj (hf.symm.trans hg)
      exact hr.resolve_right hp
    · next hr =>
      simp only [Bool.or_eq_true, beq_iff_eq, not_or] at hr
      have hslot : ∀ g, ch.flow = some g → g.phase ≠ .sending := by simpa [hf] using hr.2
      split
      · next hh => exact hplace hh hslot
      · next hh =>
        exact ⟨h.law.emptied hslot rfl, nofun, nofun, fun hm => ⟨rfl, (h.rest hm).2.1, rfl⟩⟩

end Sys2Proof.Machine

/-!
PROOFS. The law of the channels under the shared operations: the changes of the free count, the counts,
the entries into OFF, the allocator's services, and the completion of an entry.
-/
namespace Sys2Proof.Machine

/-! ### The law of the part's channels -/

/-- A channel whose line transmitter is QUIET and whose sequencer holds no active entry enters OFF (R167,
R171). -/
theorem Channel.Core.toOff {ch : Channel} (h : ch.Core) (hline : ch.lineTx = .quiet)
    (hresp : ch.response = none)
    (hseq : ch.sequencer.state = .idle ∨ (ch.sequencer.state = .defer ∧ ch.headActive = false)) :
    ch.toOff.Core := by
  obtain ⟨⟨htail, hatt, hidle, -, hout⟩, ⟨hlim, hle, hmore⟩, -, -, -, -, -⟩ := h
  have hhead : ch.headActive = false := hseq.elim hidle And.right
  have hstate : (if ch.sequencer.state = .defer then SeqState.idle else ch.sequencer.state) = .idle := by
    rcases hseq with hs | ⟨hs, -⟩ <;> simp [hs]
  have hnone : ¬ ch.sequencer.outcome.isSome = true := fun ho => by
    rcases hseq with hs | ⟨hs, -⟩ <;> exact absurd (hs.symm.trans (hout.mp ho)) nofun
  have hless : ch.sequencer.attempts ≤ ch.sequencer.limit :=
    hmore (hseq.elim .inl fun hs => .inr (.inl hs.1))
  refine ⟨⟨htail, hatt, fun _ => hhead, fun hne => absurd hstate hne, ?_⟩, ⟨hlim, hle, fun _ => hless⟩,
    fun _ => ⟨hresp, rfl⟩, fun _ => ⟨hline, hstate⟩, nofun, fun f hf => ?_, fun hs => ?_⟩
  · exact ⟨fun ho => absurd ho hnone, fun hs => absurd (hstate.symm.trans hs) nofun⟩
  · exact absurd (hline.symm.trans hf) nofun
  · simp [Channel.toOff, hresp] at hs

/-- Every channel keeps the three parts of its law, but for the core of channel x and the engine of
channel y, which an operation has in hand. -/
structure State.LawfulBut (x y : Option Chan) (s : State) : Prop where
  flow : ∀ c, (s.chan c).FlowSide s.pool
  core : ∀ c, x ≠ some c → (s.chan c).Core
  engine : ∀ c, y ≠ some c → (s.chan c).EngineSide

/-- Every channel keeps the three parts of its law. -/
abbrev State.Lawful (s : State) : Prop := s.LawfulBut none none

theorem State.channelsLaw_iff (s : State) : s.ChannelsLaw ↔ s.Lawful ∧ s.Settled := by
  have hchan : ∀ c, _ := fun c => Channel.law_iff s.pool (s.chan c)
  constructor
  · rintro ⟨hlaw, hsettled, hslots⟩
    have hall := fun c => (hchan c).mp ⟨hlaw c, hslots c⟩
    exact ⟨⟨fun c => (hall c).1, fun c _ => (hall c).2.1, fun c _ => (hall c).2.2⟩, hsettled⟩
  · rintro ⟨h, hsettled⟩
    have hall := fun c => (hchan c).mpr ⟨h.flow c, h.core c nofun, h.engine c nofun⟩
    exact ⟨fun c => (hall c).1, hsettled, fun c => (hall c).2⟩

namespace State.LawfulBut

variable {x y : Option Chan}

/-- What a channel's law looks at, in a state that differs elsewhere. -/
theorem congr {s t : State} (h : s.LawfulBut x y) (hc : t.chans = s.chans)
    (hp : t.pool = s.pool) : t.LawfulBut x y := by
  have hchan : ∀ c, t.chan c = s.chan c := fun c => by rw [State.chan_def, State.chan_def, hc]
  exact ⟨fun c => by rw [hchan, hp]; exact h.flow c, fun c hx => by rw [hchan]; exact h.core c hx,
    fun c hy => by rw [hchan]; exact h.engine c hy⟩

theorem weaken {s : State} (h : s.Lawful) (x y : Option Chan) : s.LawfulBut x y :=
  ⟨h.flow, fun c _ => h.core c nofun, fun c _ => h.engine c nofun⟩

/-- A change of one channel. -/
theorem chan {s : State} (h : s.LawfulBut x y) (c : Chan) {f : Channel → Channel}
    (hf : (f (s.chan c)).FlowSide s.pool) (hc : x ≠ some c → (f (s.chan c)).Core)
    (he : y ≠ some c → (f (s.chan c)).EngineSide) : (s.updChan c f).LawfulBut x y := by
  refine ⟨fun d => ?_, fun d hd => ?_, fun d hd => ?_⟩ <;> rw [State.chan_updChan] <;> split
  · exact hf
  · exact h.flow d
  · next heq => exact hc (heq ▸ hd)
  · exact h.core d hd
  · next heq => exact he (heq ▸ hd)
  · exact h.engine d hd

theorem raise {s : State} (h : s.LawfulBut x y) (e : Event) : (s.raise e).LawfulBut x y := h.congr rfl rfl

theorem raiseIf {s : State} (h : s.LawfulBut x y) (b : Bool) (e : Event) :
    (s.raiseIf b e).LawfulBut x y := h.congr (by simp) (by simp)

theorem count {s : State} (h : s.LawfulBut x y) (c : Chan) (k : Counter) :
    (s.count c k).LawfulBut x y :=
  (h.chan c (f := Channel.counted k) ((h.flow c).congr rfl) (fun hx => (h.core c hx).congr rfl)
    fun hy => (h.engine c hy).congr rfl).raiseIf _ _

/-- A change that reaches the flow slots and the refresh timers alone. -/
theorem of_flow {s t : State} (h : s.LawfulBut x y)
    (hc : ∀ c, t.chan c = { s.chan c with flow := (t.chan c).flow, refresh := (t.chan c).refresh })
    (hf : ∀ c, (t.chan c).FlowSide t.pool) : t.LawfulBut x y :=
  ⟨hf, fun c hx => by rw [hc c]; exact (h.core c hx).congr rfl,
    fun c hy => by rw [hc c]; exact ((h.engine c hy).congr rfl)⟩

theorem poolJudge {s : State} (h : s.LawfulBut x y) : s.poolJudge.LawfulBut x y := by
  refine h.of_flow s.poolJudge_chan fun c => ?_
  unfold State.poolJudge
  split
  · next hp =>
    split
    · change Channel.FlowSide .low ((s.chans.map Channel.enterLow).get c)
      rw [Quad.get_map]
      exact Channel.FlowSide.enterLow (hp ▸ h.flow c)
    · exact h.flow c
  · next hp =>
    split
    · change Channel.FlowSide .normal ((s.chans.map Channel.enterNormal).get c)
      rw [Quad.get_map]
      exact Channel.FlowSide.enterNormal (hp ▸ h.flow c)
    · exact h.flow c

theorem grant {s : State} (h : s.LawfulBut x y) (o : Owner) (n : Nat) : (s.grant o n).LawfulBut x y :=
  State.LawfulBut.poolJudge (h.congr rfl rfl)

theorem release {s : State} (h : s.LawfulBut x y) (p : Page) : (s.release p).LawfulBut x y :=
  State.LawfulBut.poolJudge (h.congr rfl rfl)

theorem releaseAll {s : State} (h : s.LawfulBut x y) (l : List TxEntry) :
    (s.releaseAll l).LawfulBut x y := by
  induction l generalizing s with
  | nil => exact h
  | cons e es ih => exact ih (h.release e.head)

theorem done {s : State} (h : s.LawfulBut x y) (k : StatusCode) : (s.done k).LawfulBut x y := h.congr rfl rfl

/-! ### Entry into OFF -/

/-- Entry into OFF keeps each part of the law of a channel whose conditions hold (R166, R167). -/
theorem settle_flow {p : Pool} {ch : Channel} (h : ch.FlowSide p) : ch.settle.FlowSide p := by
  unfold Channel.settle
  split
  · next hr =>
    obtain ⟨-, -, -, hflow, hline, -⟩ := (ch.stopReady_iff).mp hr
    refine ⟨⟨fun f hf => ?_, fun g hg => ?_, nofun⟩, fun g hg => ?_, nofun, fun _ => ⟨hflow, rfl, rfl⟩⟩
    · exact absurd (hline.symm.trans hf) nofun
    · exact absurd (hflow.symm.trans hg) nofun
    · exact absurd (hflow.symm.trans hg) nofun
  · exact h

theorem settle_core {ch : Channel} (h : ch.Core) : ch.settle.Core := by
  unfold Channel.settle
  split
  · next hr =>
    obtain ⟨-, hseq, hresp, -, hline, -⟩ := (ch.stopReady_iff).mp hr
    exact h.toOff hline hresp hseq
  · exact h

theorem settle_engine {ch : Channel} (h : ch.EngineSide) : ch.settle.EngineSide := by
  unfold Channel.settle
  split
  · next hr =>
    obtain ⟨-, -, -, -, -, hparser⟩ := (ch.stopReady_iff).mp hr
    exact ⟨h.law, fun _ => by rw [← hparser]; exact h.law.1 (.inl hparser)⟩
  · exact h

theorem settle {s : State} (h : s.LawfulBut x y) : s.settle.LawfulBut x y :=
  ⟨fun c => by simpa [State.settle_chan] using settle_flow (h.flow c),
    fun c hx => by simpa [State.settle_chan] using settle_core (h.core c hx),
    fun c hy => by simpa [State.settle_chan] using settle_engine (h.engine c hy)⟩

/-! ### The allocator's services -/

/-- An engine whose request is answered with a room mark (R56). -/
theorem answered_engine {ch : Channel} (h : ch.EngineSide) {n : Nat} (hn : ch.engine.request = some n)
    (r : Room) : Channel.EngineSide { ch with engine := { ch.engine with request := none, room := r } } := by
  obtain ⟨⟨-, -, hreq, -, hdata⟩, hrest⟩ := h
  obtain ⟨hlen, -⟩ := hreq n hn
  have hkind : ctrlKind ch.engine.ctrl = .data := hdata (.inr (by simp [hn]))
  refine ⟨⟨?_, ?_, nofun, fun _ => ?_, fun _ => hkind⟩, fun hm => ?_⟩
  · simp [hlen]
  · simp [hlen]
  · simp [hlen, Parser.pastLen]
  · rw [hrest hm] at hn
    exact absurd hn nofun

theorem serveRequest {s : State} (h : s.LawfulBut x none) {c : Chan} {n : Nat}
    (hn : (s.chan c).engine.request = some n) : (s.serveRequest c n).LawfulBut x none := by
  have hans : ∀ r, (s.answered c r).LawfulBut x none := fun r =>
    State.LawfulBut.chan (s := { s with lastRx := c }) (h.congr rfl rfl) c ((h.flow c).congr rfl)
      (fun hx => (h.core c hx).congr rfl) fun hy => answered_engine (h.engine c hy) hn r
  obtain hs | ⟨p, -, -, hs⟩ := s.serveRequest_cases c n <;> rw [hs]
  · exact hans _
  · exact (hans _).grant _ _

theorem serveOne {s : State} (h : s.LawfulBut x none) : s.serveOne.LawfulBut x none := by
  unfold State.serveOne
  split
  · exact h
  · split
    · exact h
    · next n hn => exact (h.serveRequest hn).settle

theorem serveFor {s : State} (h : s.LawfulBut x none) (c : Chan) (k : Nat) :
    (s.serveFor c k).LawfulBut x none := by
  induction k generalizing s with
  | zero => exact h
  | succ k ih =>
    unfold State.serveFor
    split
    · exact ih h.serveOne
    · exact h

theorem serveAll {s : State} (h : s.LawfulBut x none) : s.serveAll.LawfulBut x none :=
  h.serveOne.serveOne.serveOne.serveOne

end State.LawfulBut

/-! ### The completion of an entry -/

/-- No data frame is on the line without its clean end (R126 to R129). -/
def Channel.LineFree (ch : Channel) : Prop :=
  ∀ f, ch.lineTx = .sending f → f.kind = .data → f.verdict = .clean

theorem Channel.LineLaw.free {ch : Channel} (h : ch.LineLaw) (hs : ch.sequencer.state ≠ .attempt) :
    ch.LineFree := fun f hf hk => Classical.byContradiction fun hv => hs (h f hf hk hv)

theorem Channel.LineFree.line {ch : Channel} (h : ch.LineFree) (q : Sequencer) (l : List TxEntry) :
    Channel.LineLaw { ch with sequencer := q, txq := l } :=
  fun f hf hk hv => absurd (h f hf hk) hv

theorem List.forall_mem_tail_tail {α : Type} {p : α → Prop} {l : List α} (h : ∀ a ∈ l.tail, p a) :
    ∀ a ∈ l.tail.tail, p a := fun a ha => h a (List.mem_of_mem_tail ha)

/-- Behind the head no entry is active (R111). -/
theorem Channel.headActive_tail {ch : Channel} (h : ∀ e ∈ ch.txq.tail, e.active = false)
    (q : Sequencer) : Channel.headActive { ch with txq := ch.txq.tail, sequencer := q } = false := by
  unfold Channel.headActive
  dsimp only
  split
  · rfl
  · next e es heq => exact h e (by rw [heq]; exact List.mem_cons_self)

/-- The head entry leaves the queue, and the sequencer holds nothing of it (R143, R170). -/
theorem Channel.Core.headGone {ch : Channel} (htail : ∀ e ∈ ch.txq.tail, e.active = false)
    (hlimit : ch.sequencer.limit ≤ 15) (hrest : ch.mode = .off ∨ ch.mode = .aborting →
      ch.response = none ∧ ch.holdTimer = none) (hoff : ch.mode = .off → ch.lineTx = .quiet)
    (hfree : ch.LineFree) (hreceiver : ch.ReceiverLaw) {st : SeqState}
    (hst : st = .idle ∨ (st = .defer ∧ ch.mode = .run)) {t : Option Nat} :
    Channel.Core
      { ch with txq := ch.txq.tail, sequencer := ⟨st, 0, ch.sequencer.limit, none, t⟩ } := by
  have hhead := Channel.headActive_tail htail ⟨st, 0, ch.sequencer.limit, none, t⟩
  refine ⟨⟨List.forall_mem_tail_tail htail, by simp [hhead], fun _ => hhead, fun h1 h2 => ?_, ?_⟩,
    ⟨hlimit, Nat.zero_le _, fun _ => Nat.zero_le _⟩, hrest, fun hm => ⟨hoff hm, ?_⟩, fun hm => .inl ?_,
    hfree.line _ _, hreceiver⟩
  · rcases hst with h | ⟨h, -⟩
    · exact absurd h h1
    · exact absurd h h2
  · rcases hst with h | ⟨h, -⟩ <;> simp [h]
  · rcases hst with h | ⟨-, hrun⟩
    · exact h
    · exact absurd (hrun.symm.trans hm) nofun
  · rcases hst with h | ⟨-, hrun⟩
    · exact h
    · exact absurd (hrun.symm.trans hm) nofun

theorem Channel.Core.dropHead {ch : Channel} (h : ch.Core) (hfree : ch.LineFree) : ch.dropHead.Core := by
  refine Channel.Core.headGone h.queue.1 h.attempts.1 h.rest (fun hm => (h.off hm).1) hfree h.receiver ?_
  split
  · next hrun => exact .inr ⟨rfl, hrun.1⟩
  · exact .inl rfl

/-- The completion queue is full: the sequencer waits with its outcome (R144). -/
theorem Channel.Core.waits {ch : Channel} (h : ch.Core) (hfree : ch.LineFree)
    (hin : ch.inService = true) (hhead : ch.headActive = true) (o : TxOutcome) :
    Channel.Core { ch with
      sequencer := { ch.sequencer with state := .completeWait, outcome := some o, timer := none } } := by
  have hm : ¬ (ch.mode = .off ∨ ch.mode = .aborting) := fun hm => by
    simp [(ch.inService_false_iff).mpr hm] at hin
  obtain ⟨⟨htail, hatt, -, -, -⟩, ⟨hlim, hle, -⟩, hrest, -, -, -, hreceiver⟩ := h
  exact ⟨⟨htail, hatt, nofun, fun _ _ => hhead, by simp⟩, ⟨hlim, hle, by simp⟩, hrest,
    fun hoff => absurd (.inl hoff) hm, fun hab => absurd (.inr hab) hm, hfree.line _ _, hreceiver⟩

namespace State.LawfulBut

variable {y : Option Chan}

theorem finishEntry {s : State} (h : s.LawfulBut none y) {c : Chan} (hfree : (s.chan c).LineFree)
    (o : TxOutcome) : (s.finishEntry c o).LawfulBut none y := by
  have hdrop : ∀ {u : State}, u.LawfulBut none y → (u.chan c).lineTx = (s.chan c).lineTx →
      (u.updChan c Channel.dropHead).LawfulBut none y := fun hu hl =>
    hu.chan c ((hu.flow c).congr rfl) (fun hx => (hu.core c hx).dropHead (by rw [Channel.LineFree, hl]; exact hfree))
      fun hy => (hu.engine c hy).congr rfl
  unfold State.finishEntry
  split
  · exact h
  · next e es _ =>
    have hrecord : State.LawfulBut none y { s with
        tcq := s.tcq ++ [recordOf c e o (s.chan c).sequencer.attempts] } := h.congr rfl rfl
    have hrel := hrecord.release e.head
    dsimp only
    split
    · exact hdrop (hrel.count c _) (by simp; rfl)
    · exact hdrop hrel (by simp; rfl)

theorem claim {s : State} (h : s.LawfulBut none y) {c : Chan} (hfree : (s.chan c).LineFree)
    (hin : (s.chan c).inService = true) (hhead : (s.chan c).headActive = true) (o : TxOutcome) :
    (s.claim c o).LawfulBut none y := by
  unfold State.claim
  split
  · exact h.finishEntry hfree o
  · exact (h.chan c ((h.flow c).congr rfl) (fun hx => (h.core c hx).waits hfree hin hhead o)
      fun hy => (h.engine c hy).congr rfl).raise _

end State.LawfulBut

end Sys2Proof.Machine

/-!
PROOFS. The law of the channels under the operations of a receive engine: rejects, the header and payload
characters, deliveries, responses and the decision at the end of a frame.
-/
namespace Sys2Proof.Machine

/-! ### The engine's law by its parser -/

/-- Up to LEN an engine has neither a room mark nor a request (R55, R56). -/
theorem Engine.Law.early {e : Engine} (h : e.Law) (hp : e.parser.pastLen = false) :
    e.room = .none ∧ e.request = none := by
  obtain ⟨-, -, hreq, hroom, -⟩ := h
  constructor
  · refine Classical.byContradiction fun hne => ?_
    simp [hroom hne] at hp
  · cases hr : e.request with
    | none => rfl
    | some n => simp [(hreq n hr).1, Parser.pastLen] at hp

/-- An engine with a frame in flight and no request that waits. -/
theorem Engine.law_of_inFlight {e : Engine} (hp : e.parser.inFlight = true) (hreq : e.request = none)
    (hroom : e.room ≠ .none → e.parser.pastLen = true ∧ ctrlKind e.ctrl = .data) : e.Law := by
  refine ⟨fun h => ?_, fun h => ?_, by simp [hreq], fun h => (hroom h).1, fun h => ?_⟩
  · rcases h with h | h <;> simp [h, Parser.inFlight] at hp
  · simp [h, Parser.inFlight] at hp
  · exact (hroom (h.resolve_right (not_not_intro hreq))).2

/-- The LEN character of a DATA frame makes the request (R55). -/
theorem Engine.law_of_len {e : Engine} (hp : e.parser = .len) (hroom : e.room = .none)
    (hreq : ∀ n, e.request = some n → ctrlKind e.ctrl = .data ∧ 1 ≤ n ∧ n ≤ Config.maxChain) :
    e.Law := by
  refine ⟨by simp [hp], by simp [hp], fun n hn => ⟨hp, hroom, (hreq n hn).2⟩, fun h => absurd hroom h,
    fun h => ?_⟩
  obtain ⟨n, hn⟩ := Option.ne_none_iff_exists'.mp (h.resolve_left (not_not_intro hroom))
  exact (hreq n hn).1

theorem Channel.EngineSide.of_inService {ch : Channel} (hlaw : ch.engine.Law)
    (hin : ch.inService = true) : ch.EngineSide :=
  ⟨hlaw, fun hm => absurd ((ch.inService_false_iff).mpr hm) (by simp [hin])⟩

theorem Channel.inService_congr {a b : Channel} (h : b.mode = a.mode) : b.inService = a.inService := by
  rw [Channel.inService, h]
  rfl

/-- DATA frames of at most 240 bytes need one to four pages (R19, R55). -/
theorem pagesFor_range {l : Nat} (h : l ≤ 240) : 1 ≤ pagesFor l ∧ pagesFor l ≤ Config.maxChain := by
  simp only [pagesFor, Config.maxChain]
  split <;> omega

/-! ### What the sequencer's and the responses' changes keep -/

theorem Channel.LineFree.congr {a b : Channel} (h : a.LineFree) (hl : b.lineTx = a.lineTx) :
    b.LineFree := by
  rw [Channel.LineFree, hl]
  exact h

theorem Channel.Core.not_rest {ch : Channel} (hin : ch.inService = true) :
    ¬ (ch.mode = .off ∨ ch.mode = .aborting) := fun hm => by
  simp [(ch.inService_false_iff).mpr hm] at hin

/-- The sequencer moves between the states that have an active entry, or back to DEFER with it (R133 to
R140). -/
theorem Channel.Core.moved {ch : Channel} (h : ch.Core) (hin : ch.inService = true)
    (hhead : ch.headActive = true) (hfree : ch.LineFree) (hold : ch.sequencer.state ≠ .completeWait)
    {st : SeqState} (hidle : st ≠ .idle) (hnew : st ≠ .completeWait)
    (hle : st = .awaitAck ∨ ch.sequencer.attempts ≤ ch.sequencer.limit)
    (t : Option Nat) :
    Channel.Core { ch with sequencer := { ch.sequencer with state := st, timer := t } } := by
  have hm := Channel.Core.not_rest hin
  obtain ⟨⟨htail, hcount, -, -, hout⟩, ⟨hlim, hmax, -⟩, hrest, -, -, -, hreceiver⟩ := h
  refine ⟨⟨htail, hcount, fun h => absurd h hidle, fun _ _ => hhead, ?_⟩, ⟨hlim, hmax, fun h => ?_⟩,
    hrest, fun h => absurd (.inl h) hm, fun h => absurd (.inr h) hm, hfree.line _ _, hreceiver⟩
  · exact ⟨fun h => absurd (hout.mp h) hold, fun h => absurd h hnew⟩
  · refine hle.resolve_left fun hawait => ?_
    rcases h with h | h | h | h <;> exact absurd (h.symm.trans hawait) nofun

theorem Channel.Core.respond {ch : Channel} (h : ch.Core) (hin : ch.inService = true)
    (hrx : ch.rx = .looking) (r : Response) : Channel.Core { ch with response := some r } :=
  ⟨h.queue, h.attempts, fun hm => absurd hm (Channel.Core.not_rest hin), h.off, h.aborting, h.line,
    fun _ => .inl hrx⟩

theorem Channel.Core.holdTimed {ch : Channel} (h : ch.Core) (hin : ch.inService = true)
    (t : Option Nat) : Channel.Core { ch with holdTimer := t } :=
  ⟨h.queue, h.attempts, fun hm => absurd hm (Channel.Core.not_rest hin), h.off, h.aborting, h.line,
    h.receiver⟩

theorem Channel.headActive_of_match {ch : Channel} {src : Byte} {q : BitVec 3}
    (h : ch.matchesDelivery src q = true) : ch.headActive = true := by
  cases hq : ch.txq with
  | nil => simp [Channel.matchesDelivery, hq] at h
  | cons e es =>
    simp only [Channel.matchesDelivery, hq, Bool.and_eq_true] at h
    obtain ⟨⟨⟨hactive, -⟩, -⟩, -⟩ := h
    simpa only [Channel.headActive, hq] using hactive

theorem SeqState.ne_of_lateAck {st : SeqState} (h : st.lateAck = true) : st ≠ .attempt := by
  rintro rfl
  exact absurd h nofun

/-! ### The channel a frame's end leaves -/

@[simp] theorem State.dropFilling_chan_mode (s : State) (c d : Chan) :
    ((s.dropFilling c).chan d).mode = (s.chan d).mode := by
  unfold State.dropFilling
  split <;> simp

@[simp] theorem State.dropFilling_chan_rx (s : State) (c d : Chan) :
    ((s.dropFilling c).chan d).rx = (s.chan d).rx := by
  unfold State.dropFilling
  split <;> simp

@[simp] theorem State.rejectFrame_chan_mode (s : State) (c d : Chan) (k : Counter) (p : Parser) :
    ((s.rejectFrame c k p).chan d).mode = (s.chan d).mode := by
  rw [State.rejectFrame, State.endFrame_chan]
  split
  · next h => subst h; simp
  · simp

@[simp] theorem State.raise_chan (s : State) (e : Event) (d : Chan) : (s.raise e).chan d = s.chan d := rfl

@[simp] theorem State.recordSeq_chan (s : State) (c d : Chan) (src : Byte) (q : BitVec 3) :
    (s.recordSeq c src q).chan d = s.chan d := rfl

@[simp] theorem State.storeBytes_chan (s : State) (p : Page) (off : Nat) (l : List Byte) (d : Chan) :
    (s.storeBytes p off l).chan d = s.chan d := by
  induction l generalizing s off with
  | nil => rfl
  | cons b bs ih => rw [State.storeBytes, ih, State.storeChain_chan]

@[simp] theorem State.appendFrame_chan (s : State) (c d : Chan) (p : Page) :
    (s.appendFrame c p).chan d = s.chan d := State.storeBytes_chan _ _ _ _ _

namespace State.LawfulBut

variable {x y : Option Chan} {s : State} {c : Chan}

/-- The engine in hand is put back. -/
theorem engineBack (h : s.LawfulBut x (some c)) {f : Engine → Engine}
    (he : Channel.EngineSide { s.chan c with engine := f (s.chan c).engine }) :
    (s.updEngine c f).LawfulBut x none := by
  refine ⟨fun d => ?_, fun d hd => ?_, fun d _ => ?_⟩ <;> rw [State.updEngine_chan] <;> split
  · exact (h.flow c).congr rfl
  · exact h.flow d
  · next heq => exact (h.core c (heq ▸ hd)).congr rfl
  · exact h.core d hd
  · exact he
  · next hne => exact h.engine d fun heq => hne (Option.some.inj heq).symm

theorem engineOut (h : s.LawfulBut x none) (c : Chan) : s.LawfulBut x (some c) :=
  ⟨h.flow, h.core, fun d _ => h.engine d nofun⟩

/-- The engine in hand is changed. -/
theorem engineHeld (h : s.LawfulBut x (some c)) (f : Engine → Engine) :
    (s.updEngine c f).LawfulBut x (some c) :=
  h.chan c ((h.flow c).congr rfl) (fun hx => (h.core c hx).congr rfl) fun hy => absurd rfl hy

/-! ### Ends of frames -/

theorem dropFilling (h : s.LawfulBut x y) (c : Chan) : (s.dropFilling c).LawfulBut x y := by
  unfold State.dropFilling
  split
  · exact h.release _
  · exact h
  · exact h

theorem endFrame (h : s.LawfulBut x (some c)) {p : Parser}
    (hp : p = .hunt ∨ (p = .skip ∧ (s.chan c).inService = true)) :
    (s.endFrame c p).LawfulBut x none := by
  refine h.engineBack ⟨?_, fun hm => ?_⟩
  · rcases hp with rfl | ⟨rfl, -⟩ <;> exact ⟨fun _ => rfl, nofun, nofun, by simp [Engine.idle],
      by simp [Engine.idle]⟩
  · rcases hp with rfl | ⟨-, hin⟩
    · rfl
    · exact absurd hm (Channel.Core.not_rest hin)

theorem rejectFrame (h : s.LawfulBut x (some c)) (k : Counter) {p : Parser}
    (hp : p = .hunt ∨ (p = .skip ∧ (s.chan c).inService = true)) :
    (s.rejectFrame c k p).LawfulBut x none := by
  refine ((h.dropFilling c).count c k).endFrame (hp.imp_right fun ⟨hskip, hin⟩ => ⟨hskip, ?_⟩)
  exact (Channel.inService_congr (by simp)).trans hin

/-! ### The characters of a frame -/

theorem takeDest (h : s.LawfulBut none (some c)) (hin : (s.chan c).inService = true) (b : Byte) :
    (s.takeDest c b).Lawful := by
  unfold State.takeDest
  split
  · exact h.endFrame (.inr ⟨rfl, hin⟩)
  · split
    · exact h.rejectFrame _ (.inr ⟨rfl, hin⟩)
    · exact h.engineBack (.of_inService (Engine.law_of_inFlight rfl rfl (absurd rfl ·)) hin)

theorem takeField (h : s.Lawful) (hin : (s.chan c).inService = true) {ok : Bool}
    {f : Engine → Engine} (hf : ok = true → (f (s.chan c).engine).Law) :
    (s.takeField c ok f).Lawful := by
  have hout := h.engineOut c
  unfold State.takeField
  split
  · next hok => exact hout.engineBack (.of_inService (hf hok) hin)
  · exact hout.rejectFrame _ (.inr ⟨rfl, hin⟩)

theorem takeSrc (h : s.Lawful) (hin : (s.chan c).inService = true)
    (hp : (s.chan c).engine.parser = .destSeen) (b : Byte) : (s.takeSrc c b).Lawful := by
  obtain ⟨hroom, hreq⟩ := (h.engine c nofun).law.early (by rw [hp]; rfl)
  exact h.takeField hin fun _ => Engine.law_of_inFlight rfl hreq (absurd hroom ·)

theorem takeCtrl (h : s.Lawful) (hin : (s.chan c).inService = true)
    (hp : (s.chan c).engine.parser = .src) (b : Byte) : (s.takeCtrl c b).Lawful := by
  obtain ⟨hroom, hreq⟩ := (h.engine c nofun).law.early (by rw [hp]; rfl)
  exact h.takeField hin fun _ => Engine.law_of_inFlight rfl hreq (absurd hroom ·)

theorem takeLen (h : s.Lawful) (hin : (s.chan c).inService = true)
    (hp : (s.chan c).engine.parser = .ctrl) (b : Byte) : (s.takeLen c b).Lawful := by
  obtain ⟨hroom, -⟩ := (h.engine c nofun).law.early (by rw [hp]; rfl)
  refine h.takeField hin fun hok => Engine.law_of_len rfl hroom fun n hn => ?_
  dsimp only at hn ⊢
  split at hn
  · next hdata =>
    rw [hdata] at hok
    cases hn
    exact ⟨hdata, pagesFor_range (by simpa [lenOk] using hok)⟩
  · exact absurd hn nofun

/-- Past LEN a character leaves room mark and kind as they are (R57, R58). -/
theorem takePast (h : s.Lawful) (hin : (s.chan c).inService = true)
    (hreq : (s.chan c).engine.request = none) {f : Engine → Engine}
    (hp : (f (s.chan c).engine).parser.inFlight = true ∧ (f (s.chan c).engine).parser.pastLen = true)
    (hroom : (f (s.chan c).engine).room = (s.chan c).engine.room)
    (hctrl : (f (s.chan c).engine).ctrl = (s.chan c).engine.ctrl)
    (hrequest : (f (s.chan c).engine).request = (s.chan c).engine.request) :
    (s.updEngine c f).Lawful := by
  obtain ⟨⟨-, -, -, -, hdata⟩, -⟩ := h.engine c nofun
  refine (h.engineOut c).engineBack (.of_inService (Engine.law_of_inFlight hp.1 (hrequest.trans hreq)
    fun hr => ⟨hp.2, ?_⟩) hin)
  rw [hroom] at hr
  rw [hctrl]
  exact hdata (.inl hr)

theorem storeChain (h : s.LawfulBut x y) (p : Page) (off : Nat) (b : Byte) :
    (s.storeChain p off b).LawfulBut x y := by
  unfold State.storeChain
  split
  · exact h.congr rfl rfl
  · exact h

theorem takePayload (h : s.Lawful) (hin : (s.chan c).inService = true)
    (hreq : (s.chan c).engine.request = none) (b : Byte) : (s.takePayload c b).Lawful := by
  unfold State.takePayload
  dsimp only
  split
  · refine (h.storeChain _ _ b).takePast (c := c) ?_ ?_ ⟨rfl, rfl⟩ rfl rfl rfl <;>
      simpa [State.storeChain_chan]
  · exact h.takePast hin hreq ⟨rfl, rfl⟩ rfl rfl rfl
  · exact h.takePast hin hreq ⟨rfl, rfl⟩ rfl rfl rfl

theorem takeCheckHi (h : s.Lawful) (hin : (s.chan c).inService = true)
    (hreq : (s.chan c).engine.request = none) (b : Byte) : (s.takeCheckHi c b).Lawful :=
  h.takePast hin hreq ⟨rfl, rfl⟩ rfl rfl rfl

/-! ### The decision at the end of a frame -/

theorem placeResponse (h : s.LawfulBut none y) (hin : (s.chan c).inService = true)
    (hrx : (s.chan c).rx = .looking) (nak : Bool) (e : Engine) :
    (s.placeResponse c nak e).LawfulBut none y := by
  have hplace : ∀ {u : State}, u.LawfulBut none y → (u.chan c).mode = (s.chan c).mode →
      (u.chan c).rx = (s.chan c).rx → (u.updChan c fun ch => { ch with
        response := some ⟨nak, e.src, ctrlSeq e.ctrl, bitTicks ch.charBits⟩ }).LawfulBut none y :=
    fun hu hm hr => hu.chan c ((hu.flow c).congr rfl)
      (fun hx => (hu.core c hx).respond ((Channel.inService_congr hm).trans hin) (hr.trans hrx) _)
      fun hy => (hu.engine c hy).congr rfl
  unfold State.placeResponse
  dsimp only
  split
  · exact hplace (h.count c _) (by simp) (by simp)
  · exact hplace h rfl rfl

theorem respondIf (h : s.LawfulBut none y) (hin : (s.chan c).inService = true)
    (hrx : (s.chan c).rx = .looking) (b nak : Bool) (e : Engine) :
    (s.respondIf c b nak e).LawfulBut none y := by
  unfold State.respondIf
  split
  · exact h.placeResponse hin hrx nak e
  · exact h

theorem holdDelivered (h : s.LawfulBut none y) (hin : (s.chan c).inService = true) (d : Byte) :
    (s.holdDelivered c d).LawfulBut none y := by
  have htimed : ∀ t, (s.updChan c fun ch => { ch with holdTimer := t }).LawfulBut none y := fun t =>
    h.chan c ((h.flow c).congr rfl) (fun hx => (h.core c hx).holdTimed hin t) fun hy => (h.engine c hy).congr rfl
  unfold State.holdDelivered
  split
  · exact htimed none
  · exact (htimed _).raise _

/-- The head entry waits on in another state of the sequencer (R133 to R140). -/
theorem moved (h : s.LawfulBut none y) (hin : (s.chan c).inService = true)
    (hhead : (s.chan c).headActive = true) (hfree : (s.chan c).LineFree)
    (hold : (s.chan c).sequencer.state ≠ .completeWait) {st : SeqState} (hidle : st ≠ .idle)
    (hnew : st ≠ .completeWait)
    (hle : st = .awaitAck ∨ (s.chan c).sequencer.attempts ≤ (s.chan c).sequencer.limit)
    (t : Option Nat) :
    (s.updSeq c fun q => { q with state := st, timer := t }).LawfulBut none y :=
  h.chan c ((h.flow c).congr rfl)
    (fun hx => (h.core c hx).moved hin hhead hfree hold hidle hnew hle t)
    fun hy => (h.engine c hy).congr rfl

theorem deliver (h : s.LawfulBut none y) (hin : (s.chan c).inService = true) (nak : Bool)
    (src : Byte) (q : BitVec 3) : (s.deliver c nak src q).LawfulBut none y := by
  have hline : (s.chan c).sequencer.state ≠ .attempt → (s.chan c).LineFree :=
    (h.core c nofun).line.free
  have hstray := h.count c .strayResponses
  unfold State.deliver
  dsimp only
  split
  · next hmatch =>
    have hhead := Channel.headActive_of_match hmatch
    split
    · next hst => exact h.claim (hline (by simp [hst])) hin hhead _
    · next hst =>
      have hfree := hline (by simp [hst])
      have hin' : ((s.count c .txNaks).chan c).inService = true :=
        (Channel.inService_congr (by simp)).trans hin
      have hhead' : ((s.count c .txNaks).chan c).headActive = true :=
        (Channel.headActive_congr (by simp)).trans hhead
      split
      · next hmore =>
        refine (h.count c .txNaks).moved hin' hhead' (hfree.congr (by simp)) (by simp [hst])
          (st := .busyWait) nofun nofun (.inr ?_) _
        simp only [Sequencer.attemptsRemain, decide_eq_true_eq] at hmore
        simp only [State.count_chan_frame]
        omega
      · exact (h.count c .txNaks).claim (hfree.congr (by simp)) hin' hhead' _
    · split
      · next hlate => exact h.claim (hline (SeqState.ne_of_lateAck hlate)) hin hhead _
      · exact hstray
    · exact hstray
  · exact hstray

theorem recordSeq (h : s.LawfulBut x y) (c : Chan) (src : Byte) (q : BitVec 3) :
    (s.recordSeq c src q).LawfulBut x y := h.congr rfl rfl

theorem storeBytes (h : s.LawfulBut x y) (p : Page) (off : Nat) (l : List Byte) :
    (s.storeBytes p off l).LawfulBut x y := by
  induction l generalizing s off with
  | nil => exact h
  | cons b bs ih => exact ih (h.storeChain p off b) (off + 1)

theorem appendFrame (h : s.LawfulBut x y) (c : Chan) (p : Page) :
    (s.appendFrame c p).LawfulBut x y := by
  refine State.LawfulBut.storeBytes ?_ p 0 _
  exact h.congr rfl rfl

theorem dataEnd (h : s.LawfulBut none y) (hin : (s.chan c).inService = true)
    (hrx : (s.chan c).rx = .looking) : (s.dataEnd c).LawfulBut none y := by
  have hrespond : ∀ {u : State}, u.LawfulBut none y → (u.chan c).mode = (s.chan c).mode →
      (u.chan c).rx = (s.chan c).rx → ∀ b nak e, (u.respondIf c b nak e).LawfulBut none y :=
    fun hu hm hr => hu.respondIf ((Channel.inService_congr hm).trans hin) (hr.trans hrx)
  unfold State.dataEnd
  dsimp only
  split
  · refine State.LawfulBut.placeResponse (((h.recordSeq c _ _).dropFilling c).count c _) ?_ ?_ _ _
    · exact (Channel.inService_congr (by simp)).trans hin
    · simpa using hrx
  · split
    · exact hrespond (h.count c _) (by simp) (by simp) _ _ _
    · exact hrespond (h.count c _) (by simp) (by simp) _ _ _
    · next p _ =>
      split
      · split
        · exact hrespond (((h.appendFrame c p).count c _).recordSeq c _ _) (by simp) (by simp) _ _ _
        · exact hrespond ((h.appendFrame c p).count c _) (by simp) (by simp) _ _ _
      · exact hrespond (((h.release p).count c _).raise _) (by simp) (by simp) _ _ _

theorem decide (h : s.LawfulBut none y) (hin : (s.chan c).inService = true)
    (hrx : (s.chan c).rx = .looking) : (s.decide c).LawfulBut none y := by
  unfold State.decide
  dsimp only
  split
  · exact h.dataEnd hin hrx
  · split
    · exact h.deliver hin _ _ _
    · exact h
  · split
    · exact h.deliver hin _ _ _
    · exact h
  · split
    · exact h.holdDelivered hin _
    · exact h

theorem frameEnd (h : s.Lawful) (hin : (s.chan c).inService = true)
    (hrx : (s.chan c).rx = .looking) (lo : Byte) : (s.frameEnd c lo).Lawful := by
  have hout := (h.engineOut c).engineHeld fun e => { e with parser := .checkLo }
  unfold State.frameEnd
  dsimp only
  split
  · refine (hout.decide ?_ ?_).endFrame (.inl rfl)
    · exact (Channel.inService_congr (by rw [State.updEngine_chan, if_pos rfl])).trans hin
    · rwa [State.updEngine_chan, if_pos rfl]
  · exact hout.rejectFrame _ (.inl rfl)

/-! ### A character taken -/

theorem takeNext (h : s.Lawful) (hin : (s.chan c).inService = true)
    (hreq : (s.chan c).engine.request = none) (hrx : (s.chan c).rx = .looking) (b : Byte) :
    (s.takeNext c b).Lawful := by
  have hpast : (if (s.chan c).engine.count < (s.chan c).engine.len.toNat then s.takePayload c b
      else s.takeCheckHi c b).Lawful := by
    split
    · exact h.takePayload hin hreq b
    · exact h.takeCheckHi hin hreq b
  unfold State.takeNext
  dsimp only
  split
  · exact h
  · exact h
  · exact h
  · next hp => exact h.takeSrc hin hp b
  · next hp => exact h.takeCtrl hin hp b
  · next hp => exact h.takeLen hin hp b
  · exact hpast
  · exact hpast
  · exact h.frameEnd hin hrx b

theorem engineTake (h : s.Lawful) {z : Character}
    (hreq : (s.chan c).inService = true → (s.chan c).engine.request = none)
    (hrx : z.framing = false → (s.chan c).rx = .looking) : (s.engineTake c z).Lawful := by
  have hout := h.engineOut c
  unfold State.engineTake
  split
  · next hin =>
    dsimp only
    split
    · split
      · exact hout.rejectFrame _ (.inl rfl)
      · split
        · exact hout.endFrame (.inl rfl)
        · exact h
    · next hframing =>
      split
      · split
        · refine ((hout.rejectFrame _ (.inl rfl)).engineOut c).takeDest ?_ _
          exact (Channel.inService_congr (by simp)).trans hin
        · exact hout.takeDest hin _
      · exact h.takeNext hin (hreq hin) (hrx (Bool.eq_false_iff.mpr hframing)) _
  · exact h

end State.LawfulBut

end Sys2Proof.Machine

/-!
PROOFS. The law of the channels under the receiver and the line: start bits, characters, the readback
comparator and the ends of sending.
-/
namespace Sys2Proof.Machine

/-! ### The flow side and the core as the line transmitter changes -/

/-- No flow frame that has not ended cleanly is on the line. -/
def Channel.FlowFree (ch : Channel) : Prop :=
  ∀ f, ch.lineTx = .sending f → f.kind = .flow → f.verdict = .clean

/-- The flow side of a channel in service whose slot is empty or holds a frame just placed. -/
theorem Channel.FlowSide.filled {p : Pool} {ch : Channel} (hin : ch.inService = true)
    (hline : ch.FlowFree)
    (hslot : ch.flow = none ∨ ∃ r, ch.flow = some (.fresh r) ∧ (r = true ↔ p = .normal) ∧
      (r = true → ch.holdOutstanding = true))
    (hrefresh : ch.refresh = none ∨ (p = .low ∧ ch.holdOutstanding = true ∧ ch.flow = none)) :
    ch.FlowSide p := by
  have hfresh : ∀ g, ch.flow = some g → ∃ r, g = .fresh r ∧ (r = true ↔ p = .normal) ∧
      (r = true → ch.holdOutstanding = true) := fun g hg => by
    rcases hslot with hs | ⟨r, hs, hr⟩
    · exact absurd (hs.symm.trans hg) nofun
    · exact ⟨r, Option.some.inj (hg.symm.trans hs), hr⟩
  refine ⟨⟨fun f hf hk hv => absurd (hline f hf hk) hv, fun g hg => ?_, fun hr => ?_⟩,
    fun g hg _ => ?_, fun hr => ?_, fun hm => absurd hm (Channel.Core.not_rest hin)⟩
  · obtain ⟨r, rfl, -, hhold⟩ := hfresh g hg
    exact ⟨nofun, by simp [FlowFrame.fresh], Nat.zero_le _, Nat.zero_le _, fun _ => Nat.le_refl 0, hhold⟩
  · rcases hrefresh with h | ⟨-, h⟩
    · simp [h] at hr
    · exact h
  · obtain ⟨r, rfl, hpool, -⟩ := hfresh g hg
    exact hpool
  · rcases hrefresh with h | ⟨h, -⟩
    · simp [h] at hr
    · exact h

/-- Where no flow frame is on the line the line transmitter takes any other. -/
theorem Channel.FlowSide.setLine {p : Pool} {ch : Channel} (h : ch.FlowSide p) (hold : ch.FlowFree)
    {l : LineTx} (hnew : Channel.FlowFree { ch with lineTx := l }) :
    Channel.FlowSide p { ch with lineTx := l } := by
  obtain ⟨⟨-, hslot, htimer⟩, hfollows, hlow, hrest⟩ := h
  refine ⟨⟨fun f hf hk hv => absurd (hnew f hf hk) hv, fun g hg => ?_, htimer⟩, hfollows, hlow, hrest⟩
  obtain ⟨hsending, hmore⟩ := hslot g hg
  refine ⟨fun hp => ?_, hmore⟩
  obtain ⟨f, hf, hk, hv⟩ := hsending hp
  exact absurd (hold f hf hk) hv

/-- The frame on the line goes on, of the same kind, and clean if it was. -/
theorem Channel.FlowSide.goesOn {p : Pool} {ch : Channel} (h : ch.FlowSide p) {f g : Sending}
    (hf : ch.lineTx = .sending f) (hk : g.kind = f.kind)
    (hv : g.verdict = .clean ↔ f.verdict = .clean) :
    Channel.FlowSide p { ch with lineTx := .sending g } := by
  obtain ⟨⟨hline, hslot, htimer⟩, hfollows, hlow, hrest⟩ := h
  refine ⟨⟨fun f' hf' hk' hv' => ?_, fun q hq => ?_, htimer⟩, hfollows, hlow, hrest⟩
  · cases hf'
    exact hline f hf (hk ▸ hk') (fun h => hv' (hv.mpr h))
  · obtain ⟨hsending, hmore⟩ := hslot q hq
    refine ⟨fun hp => ?_, hmore⟩
    obtain ⟨f', hf', hk', hv'⟩ := hsending hp
    obtain rfl : f = f' := LineTx.sending.inj (hf.symm.trans hf')
    exact ⟨g, rfl, hk.trans hk', fun h => hv' (hv.mp h)⟩

theorem Channel.Core.setLine {ch : Channel} (h : ch.Core) {l : LineTx}
    (hoff : l = .quiet ∨ ch.mode ≠ .off)
    (hline : Channel.LineLaw { ch with lineTx := l }) : Channel.Core { ch with lineTx := l } :=
  ⟨h.queue, h.attempts, h.rest, fun hm => ⟨hoff.resolve_right (not_not_intro hm), (h.off hm).2⟩,
    h.aborting, hline, h.receiver⟩

theorem Channel.LineLaw.of_free {ch : Channel} (h : ch.LineFree) : ch.LineLaw :=
  fun f hf hk hv => absurd (h f hf hk) hv

theorem Channel.Core.ne_off_of_sending {ch : Channel} (h : ch.Core) {f : Sending}
    (hf : ch.lineTx = .sending f) : ch.mode ≠ .off := fun hm => by
  rw [(h.off hm).1] at hf
  exact absurd hf nofun

theorem Channel.inService_of_ne {ch : Channel} (hoff : ch.mode ≠ .off) (hab : ch.mode ≠ .aborting) :
    ch.inService = true := by
  cases hm : ch.mode <;> simp_all [Channel.inService]

/-- Past DEFER a channel that ABORT has not stopped is in service. -/
theorem Channel.Core.inService_of_state {ch : Channel} (h : ch.Core)
    (hidle : ch.sequencer.state ≠ .idle) (hdefer : ch.sequencer.state ≠ .defer)
    (hatt : ch.sequencer.state ≠ .attempt) : ch.inService = true := by
  refine Channel.inService_of_ne (fun hm => hidle (h.off hm).2) fun hm => ?_
  rcases h.aborting hm with hs | hs | ⟨hs, -⟩
  · exact hidle hs
  · exact hatt hs
  · exact hdefer hs

/-- The receiver changes, with no response pending (R84). -/
theorem Channel.Core.listens {a b : Channel} (h : a.Core) (hresp : b.response = none)
    (hv : b.coreView = Channel.coreView { a with response := b.response, rx := b.rx }) : b.Core := by
  have hb : Channel.Core { a with response := b.response, rx := b.rx } :=
    ⟨h.queue, h.attempts, fun hm => ⟨hresp, (h.rest hm).2⟩, h.off, h.aborting, h.line,
      fun hr => by simp [hresp] at hr⟩
  exact hb.congr hv

/-! ### The receiver -/

namespace State.LawfulBut

variable {x y : Option Chan} {s : State} {c : Chan}

theorem settled (h : s.Lawful) : s.settle.ChannelsLaw :=
  (State.channelsLaw_iff _).mpr ⟨h.settle, s.settled_settle⟩

theorem coreOut (h : s.LawfulBut none y) (c : Chan) : s.LawfulBut (some c) y :=
  ⟨h.flow, fun d _ => h.core d nofun, h.engine⟩

theorem coreBack (h : s.LawfulBut (some c) y) (hc : (s.chan c).Core) : s.LawfulBut none y := by
  refine ⟨h.flow, fun d _ => ?_, h.engine⟩
  by_cases hd : d = c
  · exact hd ▸ hc
  · exact h.core d fun heq => hd (Option.some.inj heq).symm

/-- A change of the channel whose core is in hand. -/
theorem coreHeld (h : s.LawfulBut (some c) y) {f : Channel → Channel}
    (hf : (f (s.chan c)).FlowSide s.pool) (he : y ≠ some c → (f (s.chan c)).EngineSide) :
    (s.updChan c f).LawfulBut (some c) y :=
  h.chan c hf (fun hx => absurd rfl hx) he

theorem dropResponse (h : s.LawfulBut (some c) y)
    (hc : Channel.Core { s.chan c with response := none }) : (s.dropResponse c).LawfulBut none y := by
  cases hr : (s.chan c).response with
  | none =>
    rw [State.dropResponse_of_none hr]
    exact h.coreBack (hc.congr (by simp [Channel.coreView, hr]))
  | some r =>
    rw [State.dropResponse_of_some hr]
    have hcount := h.count c .respDropped
    refine (hcount.coreHeld ((hcount.flow c).congr rfl) fun hy => (hcount.engine c hy).congr rfl).coreBack ?_
    rw [State.chan_updChan_same]
    exact hc.congr (by simp [Channel.coreView])

theorem startBit (h : s.Lawful) : (s.startBit c).Lawful := by
  have hstart : (s.updChan c (Channel.started (s.chan c).startLow)).LawfulBut (some c) none :=
    (h.coreOut c).coreHeld ((h.flow c).congr rfl) fun _ => (h.engine c nofun).congr rfl
  rw [State.startBit_eq]
  refine hstart.dropResponse ?_
  rw [State.chan_updChan_same]
  exact (h.core c nofun).listens rfl rfl

theorem received (h : s.Lawful) (hresp : (s.chan c).response = none) (z : Character) :
    (s.updChan c (Channel.received z)).Lawful :=
  h.chan c ((h.flow c).congr rfl) (fun _ => (h.core c nofun).listens hresp rfl) fun _ => (h.engine c nofun).congr rfl

/-! ### The ends of a data frame -/

theorem attemptClean (h : s.LawfulBut none y) (hin : (s.chan c).inService = true)
    (hst : (s.chan c).sequencer.state = .attempt) (hfree : (s.chan c).LineFree) :
    (s.attemptClean c).LawfulBut none y := by
  have hhead : (s.chan c).headActive = true :=
    (h.core c nofun).queue.2.2.2.1 (by simp [hst]) (by simp [hst])
  unfold State.attemptClean
  split
  · exact h
  · split
    · exact h.moved hin hhead hfree (by simp [hst]) (st := .awaitAck) nofun nofun (.inl rfl) _
    · exact h.claim hfree hin hhead _

theorem attemptCollision (h : s.LawfulBut none y) (hin : (s.chan c).inService = true)
    (hst : (s.chan c).sequencer.state = .attempt) (hfree : (s.chan c).LineFree) :
    (s.attemptCollision c).LawfulBut none y := by
  have hhead : (s.chan c).headActive = true :=
    (h.core c nofun).queue.2.2.2.1 (by simp [hst]) (by simp [hst])
  have hcount := h.count c .txCollisions
  have hin' : ((s.count c .txCollisions).chan c).inService = true :=
    (Channel.inService_congr (by simp)).trans hin
  have hhead' : ((s.count c .txCollisions).chan c).headActive = true :=
    (Channel.headActive_congr (by simp)).trans hhead
  have hfree' : ((s.count c .txCollisions).chan c).LineFree := hfree.congr (by simp)
  unfold State.attemptCollision
  split
  · exact h
  · dsimp only
    split
    · next hmore =>
      refine hcount.moved hin' hhead' hfree' (by simp [hst]) (st := .backoff) nofun nofun (.inr ?_) _
      simp only [Sequencer.attemptsRemain, decide_eq_true_eq] at hmore
      simp only [State.count_chan_frame]
      omega
    · exact hcount.claim hfree' hin' hhead' _

end State.LawfulBut

/-! ### The ends of a flow frame -/

theorem State.poolIsLow_iff (s : State) : s.poolIsLow = true ↔ s.pool = .low := by
  rw [State.poolIsLow]
  cases s.pool <;> simp

/-- The slot's frame that ends: on the line, with the refresh timer stopped (R153, R154). -/
theorem Channel.FlowSide.sent {p : Pool} {ch : Channel} (h : ch.FlowSide p) {f : Sending}
    (hf : ch.lineTx = .sending f) (hk : f.kind = .flow) (hv : f.verdict ≠ .clean)
    (hm : ch.mode ≠ .aborting) : ∃ g, ch.flow = some g ∧ g.phase = .sending ∧ ch.refresh = none := by
  obtain ⟨g, hg, hp⟩ := h.law.1 f hf hk hv hm
  refine ⟨g, hg, hp, ?_⟩
  cases hr : ch.refresh with
  | none => rfl
  | some n => exact absurd ((h.law.2.2 (by simp [hr])).2.symm.trans hg) nofun

/-- The clean end of a flow frame, reported while the pool is in a state (R155). -/
theorem Channel.FlowSide.cleaned {p : Pool} {low : Bool} (hlow : low = true ↔ p = .low) {ch : Channel}
    (hin : ch.inService = true) (hrefresh : ch.refresh = none) (hline : ch.FlowFree) (g : FlowFrame) :
    (Channel.flowCleanIn low g ch).FlowSide p := by
  have hnormal : low = false → p = .normal := fun h => by
    cases p with
    | normal => rfl
    | low => simp [h] at hlow
  cases hres : g.resume <;> cases hl : low
  · rw [Channel.flowCleanIn_hold_normal hres]
    exact .filled hin hline (.inr ⟨true, rfl, by simp [hnormal hl], fun _ => rfl⟩) (.inl hrefresh)
  · rw [Channel.flowCleanIn_hold_low hres]
    exact .filled hin hline (.inl rfl) (.inr ⟨hlow.mp hl, rfl, rfl⟩)
  · rw [Channel.flowCleanIn_resume_normal hres]
    exact .filled hin hline (.inl rfl) (.inl hrefresh)
  · simp only [Channel.flowCleanIn, hres]
    refine .filled hin hline ?_ (.inl hrefresh)
    dsimp only
    split
    · exact .inr ⟨false, rfl, by simp [hlow.mp hl], nofun⟩
    · exact .inl rfl

/-- What the clean end of a flow frame leaves as it is. -/
theorem Channel.flowCleanIn_eq (low : Bool) (g : FlowFrame) (ch : Channel) :
    Channel.flowCleanIn low g ch = { ch with
      flow := (Channel.flowCleanIn low g ch).flow
      holdOutstanding := (Channel.flowCleanIn low g ch).holdOutstanding
      refresh := (Channel.flowCleanIn low g ch).refresh } := by
  unfold Channel.flowCleanIn
  split <;> rfl

namespace State.LawfulBut

variable {s : State} {c : Chan}

/-- The line transmitter takes a frame that is not a flow frame, or QUIET. -/
theorem setLine (h : s.Lawful) (hold : (s.chan c).FlowFree) {l : LineTx}
    (hnew : Channel.FlowFree { s.chan c with lineTx := l })
    (hoff : l = .quiet ∨ (s.chan c).mode ≠ .off)
    (hline : Channel.LineLaw { s.chan c with lineTx := l }) : (s.setLine c l).Lawful :=
  h.chan c ((h.flow c).setLine hold hnew) (fun _ => (h.core c nofun).setLine hoff hline)
    fun _ => (h.engine c nofun).congr rfl

/-- The frame on the line goes on. -/
theorem goesOn (h : s.Lawful) {f g : Sending} (hf : (s.chan c).lineTx = .sending f)
    (hk : g.kind = f.kind) (hv : g.verdict = .clean ↔ f.verdict = .clean) :
    (s.setLine c (.sending g)).Lawful := by
  refine h.chan c ((h.flow c).goesOn hf hk hv) (fun _ => (h.core c nofun).setLine
    (.inr ((h.core c nofun).ne_off_of_sending hf)) fun f' hf' hk' hv' => ?_)
    fun _ => (h.engine c nofun).congr rfl
  cases hf'
  exact (h.core c nofun).line f hf (hk ▸ hk') fun hc => hv' (hv.mpr hc)

/-- A line transmitter ends its flow frame, which the slot learns at the same time. -/
theorem flowEnds (h : s.Lawful) (hoff : (s.chan c).mode ≠ .off) {l : LineTx} {f : Channel → Channel}
    (hline : Channel.LineFree { s.chan c with lineTx := l })
    (hf : (f { s.chan c with lineTx := l }).FlowSide s.pool)
    (heq : ∀ ch, f ch = { ch with
      flow := (f ch).flow, holdOutstanding := (f ch).holdOutstanding, refresh := (f ch).refresh }) :
    ((s.setLine c l).updChan c f).Lawful := by
  rw [State.setLine, State.updChan_updChan]
  refine h.chan c hf (fun _ => ?_) fun _ => ?_
  · rw [heq]
    exact ((h.core c nofun).setLine (.inr hoff) (.of_free hline)).congr rfl
  · rw [heq]
    exact (h.engine c nofun).congr rfl

end State.LawfulBut

end Sys2Proof.Machine

/-!
PROOFS. The law of the channels under the events of the line and of the timers.
-/
namespace Sys2Proof.Machine

/-! ### Stopping -/

theorem Channel.stopReady_false {ch : Channel} (h : ¬ ch.MayStop) : ch.stopReady = false :=
  Bool.eq_false_iff.mpr fun hs => h ((ch.stopReady_iff).mp hs)

theorem State.Settled.updChan {s : State} (h : s.Settled) {c : Chan} {f : Channel → Channel}
    (hf : (f (s.chan c)).MayStop → (s.chan c).MayStop) : (s.updChan c f).Settled := fun d => by
  rw [State.chan_updChan]
  split
  · refine Channel.stopReady_false fun hm => ?_
    have hno := h c
    rw [((s.chan c).stopReady_iff).mpr (hf hm)] at hno
    exact absurd hno nofun
  · exact h d

theorem State.Settled.congr {s t : State} (h : s.Settled) (hc : t.chans = s.chans) :
    t.Settled := fun d => by
  rw [State.chan_def, hc]
  exact h d

namespace State.LawfulBut

variable {s : State} {c : Chan}

theorem channelsLaw (h : s.Lawful) (hs : s.Settled) : s.ChannelsLaw :=
  (State.channelsLaw_iff s).mpr ⟨h, hs⟩

/-! ### The readback comparator -/

theorem flowClean (h : s.Lawful) {f : Sending} (hf : (s.chan c).lineTx = .sending f)
    (hk : f.kind = .flow) (hv : f.verdict = .pending) (hm : (s.chan c).mode ≠ .aborting)
    {g : Sending} (hg : g.verdict = .clean) : ((s.setLine c (.sending g)).flowClean c).Lawful := by
  obtain ⟨q, hq, -, hr⟩ := (h.flow c).sent hf hk (by simp [hv]) hm
  have hoff := (h.core c nofun).ne_off_of_sending hf
  have hslot : ((s.setLine c (.sending g)).chan c).flow = some q := by
    rw [State.setLine_chan, if_pos rfl]
    exact hq
  have hlow : (s.setLine c (.sending g)).poolIsLow = true ↔ s.pool = .low := State.poolIsLow_iff _
  have hclean : ∀ f', LineTx.sending g = .sending f' → f'.verdict = .clean := fun f' hf' =>
    LineTx.sending.inj hf' ▸ hg
  rw [State.flowClean_of_some hslot]
  exact (h.flowEnds hoff (fun f' hf' _ => hclean f' hf')
    (Channel.FlowSide.cleaned (ch := { s.chan c with lineTx := .sending g }) hlow
      (Channel.inService_of_ne hoff hm) hr (fun f' hf' _ => hclean f' hf') q)
    (Channel.flowCleanIn_eq _ q)).raise _

/-- A frame on the line that is not a flow frame ends cleanly. -/
theorem endsClean (h : s.Lawful) {f : Sending} (hf : (s.chan c).lineTx = .sending f)
    (hk : f.kind ≠ .flow) {g : Sending} (hg : g.verdict = .clean) :
    (s.setLine c (.sending g)).Lawful := by
  refine h.setLine (fun f' hf' hk' => ?_) (fun f' hf' hk' => ?_)
    (.inr ((h.core c nofun).ne_off_of_sending hf)) (.of_free fun f' hf' _ => ?_)
  · obtain rfl := LineTx.sending.inj (hf.symm.trans hf')
    exact absurd hk' hk
  · cases hf'
    exact hg
  · cases hf'
    exact hg

theorem readback (h : s.Lawful) {f f0 : Sending} (hf : (s.chan c).lineTx = .sending f)
    (hk : f0.kind = f.kind) (hv : f0.verdict = f.verdict) (z : Character) :
    (s.readback c f0 z).Lawful := by
  by_cases hj : (s.chan c).mode = .aborting ∨ f0.verdict ≠ .pending
  · rw [State.readback_of_judged hj]
    exact h
  · obtain ⟨hm, hpending⟩ := not_or.mp hj
    have hpending := Classical.not_not.mp hpending
    have hv' : f.verdict = .pending := hv.symm.trans hpending
    rw [State.readback_of_pending hm hpending rfl]
    split
    · split
      · cases hkind : f.kind with
        | response =>
          simp only [hk, hkind, State.reportClean]
          exact h.endsClean hf (by simp [hkind]) rfl
        | flow =>
          simp only [hk, hkind, State.reportClean]
          exact h.flowClean hf hkind hv' hm rfl
        | data =>
          simp only [hk, hkind, State.reportClean]
          have hst := (h.core c nofun).line f hf hkind (by simp [hv'])
          have hline := State.setLine_chan s c c
            (.sending ⟨.data, f0.chars, f0.index, f0.ticks, true, .clean⟩)
          rw [if_pos rfl] at hline
          refine (h.endsClean hf (by simp [hkind]) rfl).attemptClean ?_ ?_ ?_ <;> rw [hline]
          · exact Channel.inService_of_ne ((h.core c nofun).ne_off_of_sending hf) hm
          · exact hst
          · intro f' hf' _
            cases hf'
            rfl
      · exact h.goesOn hf hk (by simp [hv', hpending])
    · exact h.goesOn hf hk (by simp [hv'])

/-! ### Characters -/

theorem completeCharacter (h : s.Lawful) (hresp : (s.chan c).response = none) (z : Character)
    (hreq : (s.chan c).lineTx = .quiet → (s.chan c).inService = true →
      (s.chan c).engine.request = none) : (s.completeCharacter c z).Lawful := by
  have hrec := h.received hresp z
  have hchan : (s.updChan c (Channel.received z)).chan c = (s.chan c).received z := by simp
  unfold State.completeCharacter
  dsimp only
  split
  · next hl =>
    refine hrec.engineTake (fun hin => ?_) fun hz => ?_ <;> rw [hchan] at *
    · exact hreq hl hin
    · simp [Channel.received, hz]
  · next f hl =>
    refine hrec.readback (f := f) (by rw [hchan]; exact hl) ?_ ?_ z <;> split
    · rfl
    · exact f.atTest_kind
    · rfl
    · exact f.atTest_verdict

end State.LawfulBut

/-- A receiver past a start bit has left no response pending (R84). -/
theorem Channel.Core.no_response {ch : Channel} (h : ch.Core)
    (hrx : ¬ (ch.rx = .looking ∨ ch.rx = .candidate)) : ch.response = none := by
  cases hr : ch.response with
  | none => rfl
  | some r => exact absurd (h.receiver (by simp [hr])) hrx

@[simp] theorem State.settle_chan_response (s : State) (c : Chan) :
    (s.settle.chan c).response = (s.chan c).response := by
  rw [State.settle_chan, Channel.settle]
  split <;> rfl

theorem State.serveOne_response (s : State) (c : Chan) :
    (s.serveOne.chan c).response = (s.chan c).response := by
  unfold State.serveOne
  split
  · rfl
  · split
    · rfl
    · next d _ _ n _ =>
      have hans : ∀ r, ((s.answered d r).chan c).response = (s.chan c).response := fun r => by
        rw [State.answered_chan]
        split
        · next hd => rw [hd]
        · rfl
      rw [State.settle_chan_response]
      obtain hs | ⟨p, -, -, hs⟩ := s.serveRequest_cases d n
      · rw [hs, hans]
      · simpa only [hs, State.grant_chan_frame] using hans _

theorem State.serveFor_response (s : State) (c d : Chan) (k : Nat) :
    ((s.serveFor d k).chan c).response = (s.chan c).response := by
  induction k generalizing s with
  | zero => rfl
  | succ k ih =>
    unfold State.serveFor
    split
    · rw [ih, State.serveOne_response]
    · rfl

theorem State.Settled.serveFor {s : State} (h : s.Settled) (c : Chan) (k : Nat) :
    (s.serveFor c k).Settled := by
  induction k generalizing s with
  | zero => exact h
  | succ k ih =>
    unfold State.serveFor
    split
    · refine ih ?_
      unfold State.serveOne
      split
      · exact h
      · split
        · exact h
        · exact State.settled_settle _
    · exact h

/-- A request of a frame in flight does not wait when the frame's next character completes (R28). -/
theorem State.beforeCharacter_request {s : State} {c : Chan}
    (hl : ((s.beforeCharacter c).chan c).lineTx = .quiet)
    (hin : ((s.beforeCharacter c).chan c).inService = true) :
    ((s.beforeCharacter c).chan c).engine.request = none := by
  unfold State.beforeCharacter at *
  split
  · exact State.serveFor_request s.requests_length_le c
  · next hno =>
    rw [if_neg hno] at hl hin
    exact absurd (by simp [hl, hin]) hno

theorem State.dropResponse_response (s : State) (c : Chan) :
    ((s.dropResponse c).chan c).response = none := by
  cases hr : (s.chan c).response with
  | none => rw [State.dropResponse_of_none hr, hr]
  | some r => rw [State.dropResponse_of_some hr, State.chan_updChan_same]

namespace State.LawfulBut

variable {s : State} {c : Chan}

theorem beforeCharacter (h : s.Lawful) : (s.beforeCharacter c).Lawful := by
  unfold State.beforeCharacter
  split
  · exact h.serveFor c 4
  · exact h

end State.LawfulBut

namespace State.ChannelsLaw

variable {s : State} {c : Chan}

theorem lawful (h : s.ChannelsLaw) : s.Lawful := ((State.channelsLaw_iff s).mp h).1

theorem settled (h : s.ChannelsLaw) : s.Settled := h.2.1

/-- A state that agrees with a lawful one at its channels and its pool monitor. -/
theorem congr {t : State} (h : s.ChannelsLaw) (hc : t.chans = s.chans)
    (hp : t.pool = s.pool) : t.ChannelsLaw :=
  (h.lawful.congr hc hp).channelsLaw (h.settled.congr hc)

theorem raise (h : s.ChannelsLaw) (e : Event) : (s.raise e).ChannelsLaw := h.congr rfl rfl

theorem receiveCharacter (h : s.ChannelsLaw) (hresp : (s.chan c).response = none) (z : Character) :
    (s.receiveCharacter c z).ChannelsLaw := by
  have hbefore : (s.beforeCharacter c).ChannelsLaw := by
    refine h.lawful.beforeCharacter.channelsLaw ?_
    unfold State.beforeCharacter
    split
    · exact h.settled.serveFor c 4
    · exact h.settled
  have hresp' : ((s.beforeCharacter c).chan c).response = none := by
    unfold State.beforeCharacter
    split
    · rw [State.serveFor_response, hresp]
    · exact hresp
  unfold State.receiveCharacter
  dsimp only
  split
  · exact (hbefore.lawful.completeCharacter hresp' z State.beforeCharacter_request).settled
  · exact hbefore

theorem startBit (h : s.ChannelsLaw) : (s.startBit c).settle.ChannelsLaw := h.lawful.startBit.settled

theorem lineCharacter (h : s.ChannelsLaw) (c : Chan) (z : Character) :
    (s.lineCharacter c z).ChannelsLaw := by
  by_cases hm : (s.chan c).mode = .off
  · rw [State.lineCharacter_of_off hm]
    exact h
  have hawaits : ((s.chan c).rx = .looking ∨ (s.chan c).rx = .candidate) →
      (s.lineCharacter c z).ChannelsLaw := fun hrx => by
    rw [State.lineCharacter_of_awaitsStart hm hrx]
    split
    · refine h.startBit.receiveCharacter ?_ z
      rw [State.settle_chan_response, State.startBit_eq, State.dropResponse_response]
    · exact h.startBit
  cases hrx : (s.chan c).rx with
  | waitHigh =>
    rw [State.lineCharacter_of_waitHigh hrx]
    exact h
  | inCharacter =>
    rw [State.lineCharacter_of_inCharacter hm hrx]
    refine h.receiveCharacter ?_ z
    exact (h.lawful.core c nofun).no_response (by simp [hrx])
  | looking => exact hawaits (.inl hrx)
  | candidate => exact hawaits (.inr hrx)

/-- A change of one channel that its conditions to stop do not look at. -/
theorem updChan (h : s.ChannelsLaw) {f : Channel → Channel} (hf : (s.updChan c f).Lawful)
    (hstop : (f (s.chan c)).MayStop → (s.chan c).MayStop) : (s.updChan c f).ChannelsLaw :=
  hf.channelsLaw (h.settled.updChan hstop)

theorem startBitDetected (h : s.ChannelsLaw) :
    (if (s.chan c).awaitsStart then (s.startBit c).settle else s).ChannelsLaw := by
  split
  · exact h.startBit
  · exact h

/-! ### Events of the receiver that keep its channel's response slot empty -/

theorem lineSampledHigh {t : State} (h : s.ChannelsLaw) (ht : exec (.lineSampledHigh c) s = .next t) :
    t.ChannelsLaw := by
  rw [exec_lineSampledHigh] at ht
  cases ht
  split
  · next hc =>
    obtain ⟨-, hrx⟩ := hc
    refine h.updChan (h.lawful.chan c ((h.lawful.flow c).congr rfl)
      (fun _ => (h.lawful.core c nofun).listens ?_ rfl) fun _ => (h.lawful.engine c nofun).congr rfl) id
    exact (h.lawful.core c nofun).no_response (by simp [hrx])
  · exact h

theorem lineFault {t : State} (h : s.ChannelsLaw) (ht : exec (.lineFault c) s = .next t) :
    t.ChannelsLaw := by
  cases hl : (s.chan c).faultable with
  | none =>
    rw [exec_lineFault_of_none hl] at ht
    cases ht
    exact h
  | some l =>
    rw [exec_lineFault_of_some hl] at ht
    cases ht
    exact (h.updChan (h.lawful.chan c ((h.lawful.flow c).congr rfl)
      (fun _ => (h.lawful.core c nofun).congr rfl) fun _ => (h.lawful.engine c nofun).congr rfl) id).raise _

/-! ### Events of a receive engine -/

theorem idleAtLeast (h : s.Lawful) (c : Chan) (n : Nat) :
    (s.updChan c (Channel.idleAtLeast n)).Lawful :=
  h.chan c ((h.flow c).congr rfl) (fun _ => (h.core c nofun).congr rfl) fun _ => (h.engine c nofun).congr rfl

theorem gapExpiry {t : State} (h : s.ChannelsLaw) (ht : exec (.gapExpiry c) s = .next t) :
    t.ChannelsLaw := by
  rw [exec_gapExpiry] at ht
  cases ht
  split
  · exact ((((idleAtLeast h.lawful c _).serveFor c 4).engineOut c).rejectFrame _ (.inl rfl)).settled
  · exact h

theorem skipGapExit {t : State} (h : s.ChannelsLaw) (ht : exec (.skipGapExit c) s = .next t) :
    t.ChannelsLaw := by
  rw [exec_skipGapExit] at ht
  cases ht
  split
  · exact (((idleAtLeast h.lawful c _).engineOut c).endFrame (.inl rfl)).settled
  · exact h

theorem holdTimerExpiry (h : s.ChannelsLaw) (c : Chan) :
    (s.updChan c fun ch => { ch with holdTimer := none }).ChannelsLaw := by
  have hcore := h.lawful.core c nofun
  exact h.updChan (h.lawful.chan c ((h.lawful.flow c).congr rfl) (fun _ => ⟨hcore.queue, hcore.attempts,
    fun hm => ⟨(hcore.rest hm).1, rfl⟩, hcore.off, hcore.aborting, hcore.line, hcore.receiver⟩)
    fun _ => (h.lawful.engine c nofun).congr rfl) id

end State.ChannelsLaw

end Sys2Proof.Machine

/-!
PROOFS. The law of the channels under the ends and starts of sending, the timers and ABORT.
-/
namespace Sys2Proof.Machine

/-! ### A QUIET line transmitter -/

theorem Channel.FlowFree.of_quiet {ch : Channel} (h : ch.lineTx = .quiet) : ch.FlowFree :=
  fun _ hf => absurd (h.symm.trans hf) nofun

theorem Channel.LineFree.of_quiet {ch : Channel} (h : ch.lineTx = .quiet) : ch.LineFree :=
  fun _ hf => absurd (h.symm.trans hf) nofun

/-! ### The end of a flow frame that collided -/

/-- A drop of the flow frame counts it after emptying the slot as well as before. -/
theorem State.dropFlow_eq (s : State) (c : Chan) :
    s.dropFlow c = (s.updChan c fun ch => { ch with flow := none }).count c .flowDropped := by
  simp [State.dropFlow, State.count, State.raiseIf_eq, State.updChan, State.chan, Quad.get_set_same,
    Quad.set_set, Channel.counted, Channel.counter]

/-- The flow frame waits for its backoff timer (R156). -/
theorem Channel.FlowSide.backsOff {p : Pool} {ch : Channel} (h : ch.FlowSide p)
    (hin : ch.inService = true) {g : FlowFrame} (hg : ch.flow = some g) (hrefresh : ch.refresh = none)
    (hmore : g.attempts < 1 + g.limit) (hpool : g.resume = true ↔ p = .normal) (n : Nat) {l : LineTx}
    (hline : Channel.FlowFree { ch with lineTx := l }) :
    Channel.FlowSide p
      { ch with lineTx := l, flow := some { g with phase := .backoff, timer := some n } } := by
  obtain ⟨-, -, hlimit, -, -, hhold⟩ := h.law.2.1 g hg
  refine ⟨⟨fun f hf hk hv => absurd (hline f hf hk) hv, fun q hq => ?_, by simp [hrefresh]⟩,
    fun q hq _ => ?_, by simp [hrefresh], fun hm => absurd hm (Channel.Core.not_rest hin)⟩
  · cases hq
    dsimp only
    exact ⟨nofun, by simp, hlimit, by omega, fun _ => by omega, hhold⟩
  · cases hq
    exact hpool

/-- The timer of a frame that backs off, or waits, stops. -/
theorem Channel.FlowSide.waits {p : Pool} {ch : Channel} (h : ch.FlowSide p) {g : FlowFrame}
    (hg : ch.flow = some g) (hp : g.phase = .backoff) :
    Channel.FlowSide p { ch with flow := some { g with phase := .waiting, timer := none } } := by
  obtain ⟨⟨hline, hslot, htimer⟩, hfollows, hlow, hrest⟩ := h
  obtain ⟨-, -, hlimit, hmax, hless, hhold⟩ := hslot g hg
  refine ⟨⟨fun f hf hk hv hm => ?_, fun q hq => ?_, fun hr => ?_⟩, fun q hq _ => ?_, hlow,
    fun hm => absurd ((hrest hm).1.symm.trans hg) nofun⟩
  · obtain ⟨g', hg', hp'⟩ := hline f hf hk hv hm
    obtain rfl := Option.some.inj (hg.symm.trans hg')
    exact absurd (hp.symm.trans hp') nofun
  · cases hq
    exact ⟨nofun, by simp, hlimit, hmax, fun _ => hless (by simp [hp]), hhold⟩
  · exact absurd ((htimer hr).2.symm.trans hg) nofun
  · cases hq
    exact hfollows g hg (by simp [hp])

/-- The flow frame's attempt starts (R154). -/
theorem Channel.FlowSide.starts {p : Pool} {ch : Channel} (h : ch.FlowSide p)
    (hin : ch.inService = true) {g : FlowFrame} (hg : ch.flow = some g) (hp : g.phase = .waiting)
    {limit : Nat} (hlim : limit ≤ 15) (own d : Byte) {f : Sending} (hk : f.kind = .flow)
    (hv : f.verdict ≠ .clean) :
    Channel.FlowSide p { ch with lineTx := .sending f, flow := some (g.started limit own d) } := by
  obtain ⟨⟨-, hslot, htimer⟩, -, hlow, -⟩ := h
  obtain ⟨-, -, hlimit, -, hless, hhold⟩ := hslot g hg
  have hless := hless (by simp [hp])
  refine ⟨⟨fun _ _ _ _ _ => ⟨_, rfl, rfl⟩, fun q hq => ?_, fun hr => ?_⟩, fun q hq hphase => ?_, hlow,
    fun hm => absurd hm (Channel.Core.not_rest hin)⟩
  · cases hq
    refine ⟨fun _ => ⟨f, rfl, hk, hv⟩, by simp [FlowFrame.started], ?_, ?_,
      fun hphase => absurd rfl hphase, hhold⟩ <;> simp only [FlowFrame.started] <;> split <;> omega
  · exact absurd ((htimer hr).2.symm.trans hg) nofun
  · cases hq
    exact absurd rfl hphase

theorem Channel.FlowSide.refresh_none {p : Pool} {ch : Channel} (h : ch.FlowSide p) {g : FlowFrame}
    (hg : ch.flow = some g) : ch.refresh = none := by
  cases hr : ch.refresh with
  | none => rfl
  | some n => exact absurd ((h.law.2.2 (by simp [hr])).2.symm.trans hg) nofun

namespace State.LawfulBut

variable {s : State} {c : Chan}

theorem flowCollision (h : s.Lawful) {f : Sending} (hf : (s.chan c).lineTx = .sending f)
    (hk : f.kind = .flow) (hv : f.verdict ≠ .clean) (hm : (s.chan c).mode ≠ .aborting) :
    ((s.setLine c .quiet).flowCollision c).Lawful := by
  obtain ⟨g, hg, -, hr⟩ := (h.flow c).sent hf hk hv hm
  have hoff := (h.core c nofun).ne_off_of_sending hf
  have hin := Channel.inService_of_ne hoff hm
  have hslot : ((s.setLine c .quiet).chan c).flow = some g := by
    rw [State.setLine_chan, if_pos rfl]
    exact hg
  have hwanted : (g.resume = true ↔ s.pool = .normal) →
      (if g.attempts < 1 + g.limit then
        (s.setLine c .quiet).updChan c fun ch =>
          { ch with
            flow := some { g with phase := .backoff, timer := some (ch.backoffTicks g.own g.attempts) } }
      else (s.setLine c .quiet).dropFlow c).Lawful := fun hpool => by
    split
    · next hmore =>
      exact h.flowEnds hoff (.of_quiet rfl) ((h.flow c).backsOff hin hg hr hmore hpool _ (.of_quiet rfl)) fun _ => rfl
    · rw [State.dropFlow_eq]
      exact (h.flowEnds hoff (.of_quiet rfl) (.filled hin (.of_quiet rfl) (.inl rfl) (.inl hr)) fun _ => rfl).count c _
  cases hres : g.resume <;> cases hp : s.pool
  · rw [State.flowCollision_of_needless_hold hslot hres hp]
    refine h.flowEnds hoff (.of_quiet rfl) (.filled hin (.of_quiet rfl) ?_ (.inl hr)) fun _ => rfl
    dsimp only
    split
    · next ho => exact .inr ⟨true, rfl, by simp [hp], fun _ => ho⟩
    · exact .inl rfl
  · rw [State.flowCollision_of_wanted hslot (.inl ⟨hres, hp⟩)]
    exact hwanted (by simp [hres, hp])
  · rw [State.flowCollision_of_wanted hslot (.inr ⟨hres, hp⟩)]
    exact hwanted (by simp [hres, hp])
  · rw [State.flowCollision_of_wrong_resume hslot hres hp]
    exact h.flowEnds hoff (.of_quiet rfl)
      (.filled hin (.of_quiet rfl) (.inr ⟨false, rfl, by simp [hp], nofun⟩) (.inl hr)) fun _ => rfl

theorem reportCollision (h : s.Lawful) {f : Sending} (hf : (s.chan c).lineTx = .sending f)
    (hv : f.verdict = .collision) (hm : (s.chan c).mode ≠ .aborting) :
    ((s.setLine c .quiet).reportCollision c f.kind).Lawful := by
  have hquiet : f.kind ≠ .flow → (s.setLine c .quiet).Lawful := fun hk =>
    h.setLine (fun f' hf' hk' => absurd (LineTx.sending.inj (hf.symm.trans hf') ▸ hk') hk) nofun
      (.inl rfl) nofun
  have hchan := State.setLine_chan s c c .quiet
  rw [if_pos rfl] at hchan
  cases hk : f.kind with
  | response => exact (hquiet (by simp [hk])).count c _
  | flow => exact h.flowCollision hf hk (by simp [hv]) hm
  | data =>
    refine (hquiet (by simp [hk])).attemptCollision ?_ ?_ ?_ <;> rw [hchan]
    · exact Channel.inService_of_ne ((h.core c nofun).ne_off_of_sending hf) hm
    · exact (h.core c nofun).line f hf hk (by simp [hv])
    · exact .of_quiet rfl

end State.LawfulBut

theorem Channel.not_mayStop_of_sending {ch : Channel} {f : Sending} (h : ch.lineTx = .sending f) :
    ¬ ch.MayStop := fun hs => by
  obtain ⟨-, -, -, -, hl, -⟩ := hs
  exact absurd (hl.symm.trans h) nofun

theorem Channel.not_mayStop_of_flow {ch : Channel} {g : FlowFrame} (h : ch.flow = some g) :
    ¬ ch.MayStop := fun hs => by
  obtain ⟨-, -, -, hf, -⟩ := hs
  exact absurd (hf.symm.trans h) nofun

namespace State.ChannelsLaw

variable {s t : State} {c : Chan}

/-! ### The ends of sending -/

theorem missingReadback (h : s.ChannelsLaw) (ht : exec (.missingReadback c) s = .next t) :
    t.ChannelsLaw := by
  cases hl : (s.chan c).lineTx with
  | quiet =>
    rw [exec_missingReadback_of_quiet hl] at ht
    cases ht
    exact h
  | sending f =>
    rw [exec_missingReadback_of_sending hl] at ht
    cases ht
    split
    · exact h
    · next hno =>
      have hv : f.verdict = .pending := Classical.byContradiction fun hv => hno (.inr (.inl hv))
      exact h.updChan (h.lawful.goesOn hl f.atTest_kind (by simp [hv]))
        fun hs => absurd hs (Channel.not_mayStop_of_sending rfl)

theorem lineTransmitterQuiet (h : s.ChannelsLaw) (ht : exec (.lineTransmitterQuiet c) s = .next t) :
    t.ChannelsLaw := by
  cases hl : (s.chan c).lineTx with
  | quiet =>
    rw [exec_lineTransmitterQuiet_of_quiet hl] at ht
    cases ht
    exact h
  | sending f =>
    rw [exec_lineTransmitterQuiet_of_sending hl] at ht
    cases ht
    split
    · next hc =>
      refine (h.lawful.setLine (fun f' hf' _ => ?_) (.of_quiet rfl) (.inl rfl)
        (.of_free (.of_quiet rfl))).settled
      exact LineTx.sending.inj (hl.symm.trans hf') ▸ hc.1
    · exact h

theorem collisionReported (h : s.ChannelsLaw) (ht : exec (.collisionReported c) s = .next t) :
    t.ChannelsLaw := by
  cases hl : (s.chan c).lineTx with
  | quiet =>
    rw [exec_collisionReported_of_quiet hl] at ht
    cases ht
    exact h
  | sending f =>
    rw [exec_collisionReported_of_sending hl] at ht
    cases ht
    split
    · next hc => exact (h.lawful.reportCollision hl hc.1 hc.2).settled
    · exact h

/-! ### Starts of frames -/

theorem responseStart (h : s.ChannelsLaw) (ht : exec (.responseStart c) s = .next t) :
    t.ChannelsLaw := by
  cases hr : (s.chan c).response with
  | none =>
    rw [exec_responseStart_of_none hr] at ht
    cases ht
    exact h
  | some r =>
    rw [exec_responseStart_of_some hr] at ht
    cases ht
    split
    · next hready =>
      have hgone : Channel.Core { s.chan c with response := none } := (h.lawful.core c nofun).listens rfl rfl
      obtain ⟨hm, hl, -⟩ := (Channel.responseReady_iff _).mp hready
      split
      · have hempty : (s.updChan c fun ch => { ch with response := none }).Lawful :=
          h.lawful.chan c ((h.lawful.flow c).congr rfl) (fun _ => hgone) fun _ => (h.lawful.engine c nofun).congr rfl
        have hoff : (s.chan c).mode ≠ .off := by rcases hm with hm | hm <;> simp [hm]
        refine (hempty.setLine ?_ ?_ (.inr ?_) ?_).settled <;> rw [State.chan_updChan_same]
        · intro f hf
          exact absurd (hl.symm.trans hf) nofun
        · intro f hf hk
          cases hf
          exact absurd hk nofun
        · exact hoff
        · intro f hf hk
          cases hf
          exact absurd hk nofun
      · exact ((h.lawful.coreOut c).dropResponse hgone).settled
    · exact h

theorem flowFrameStart (h : s.ChannelsLaw) (ht : exec (.flowFrameStart c) s = .next t) :
    t.ChannelsLaw := by
  cases hf : (s.chan c).flow with
  | none =>
    simp only [exec, execFlowFrameStart, hf] at ht
    cases ht
    exact h
  | some g =>
    rw [exec_flowFrameStart_of_some hf] at ht
    cases ht
    split
    · next hready =>
      obtain ⟨hm, hl, -, ⟨g', hg', hp⟩, -, -⟩ := (Channel.flowReady_iff _).mp hready
      obtain rfl := Option.some.inj (hf.symm.trans hg')
      have hin := ((s.chan c).inService_iff).mpr hm
      have hoff : (s.chan c).mode ≠ .off := by rcases hm with hm | hm <;> simp [hm]
      split
      · rw [State.startFrame, State.setLine, State.updChan_updChan]
        have hsend : ∀ f, f.kind = .flow →
            Channel.Core { s.chan c with lineTx := .sending f } := fun f hk =>
          (h.lawful.core c nofun).setLine (.inr hoff) fun f' hf' hk' => by
            cases hf'
            exact absurd (hk.symm.trans hk') nofun
        refine h.updChan (h.lawful.chan c ?_ (fun _ => (hsend _ ?_).congr rfl)
          fun _ => (h.lawful.engine c nofun).congr rfl)
          fun hs => absurd hs (Channel.not_mayStop_of_sending rfl)
        · exact ((h.lawful.flow c).starts hin hf hp (Nat.min_le_left 15 _) _ _
            (f := ⟨.flow, _, 0, 0, false, .pending⟩) rfl nofun).congr rfl
        · rfl
      · rw [State.dropFlow_eq, State.updChan_updChan]
        refine (State.LawfulBut.count (h.lawful.chan c ?_ (fun _ => (h.lawful.core c nofun).congr rfl)
          fun _ => (h.lawful.engine c nofun).congr rfl) c _).settled
        exact .filled hin (fun f' hf' => absurd (hl.symm.trans hf') nofun) (.inl rfl)
          (.inl ((h.lawful.flow c).refresh_none hf))
    · exact h

end State.ChannelsLaw

end Sys2Proof.Machine

/-!
PROOFS. The law of the channels under the start of a data attempt, the sequencer's and the flow timers,
and ABORT.
-/
namespace Sys2Proof.Machine

/-! ### The start of a data attempt -/

theorem activateHead_tail (l : List TxEntry) : (activateHead l).tail = l.tail := by cases l <;> rfl

theorem Channel.Core.starts {ch : Channel} (h : ch.Core) (hin : ch.inService = true)
    (hst : ch.sequencer.state = .defer) {e : TxEntry} {es : List TxEntry} (hq : ch.txq = e :: es)
    {limit : Nat} (hlim : limit ≤ 15) (f : Sending) :
    Channel.Core { ch with
      txq := activateHead ch.txq, sequencer := ch.sequencer.started limit, lineTx := .sending f } := by
  have hm := Channel.Core.not_rest hin
  obtain ⟨⟨htail, -, -, -, hout⟩, ⟨hold, -, hless⟩, hrest, -, -, -, hreceiver⟩ := h
  have hless := hless (.inr (.inl hst))
  have hhead : Channel.headActive { ch with
      txq := activateHead ch.txq, sequencer := ch.sequencer.started limit, lineTx := .sending f } =
      true := by simp [Channel.headActive, hq, activateHead]
  have hnone : ¬ ch.sequencer.outcome.isSome = true := fun ho => by
    simp [hst] at hout
    simp [hout] at ho
  refine ⟨⟨?_, ?_, nofun, fun _ _ => hhead, fun ho => absurd ho hnone, nofun⟩, ⟨?_, ?_, by
    simp [Sequencer.started]⟩, hrest, fun h => absurd (.inl h) hm, fun h => absurd (.inr h) hm,
    fun _ _ _ _ => rfl, hreceiver⟩
  · rw [activateHead_tail]
    exact htail
  · exact ⟨nofun, fun hno => absurd (hhead.symm.trans hno) nofun⟩
  · simp only [Sequencer.started]
    split <;> omega
  · simp only [Sequencer.started]
    split <;> omega

namespace State.ChannelsLaw

variable {s t : State} {c : Chan}

theorem attemptStart (h : s.ChannelsLaw) (ht : exec (.attemptStart c) s = .next t) :
    t.ChannelsLaw := by
  cases hq : (s.chan c).txq with
  | nil =>
    simp only [exec, execAttemptStart, hq] at ht
    cases ht
    exact h
  | cons e es =>
    rw [exec_attemptStart_of_cons hq] at ht
    cases ht
    split
    · next hready =>
      obtain ⟨hl, -, -, -, -, -, hst, e', es', hq', hm⟩ := (Channel.dataReady_iff _).mp hready
      have hin : (s.chan c).inService = true :=
        ((s.chan c).inService_iff).mpr (hm.imp id And.left)
      have hstart : ∀ {u : State}, u.ChannelsLaw → u.chan c = s.chan c →
          ((u.updChan c fun ch =>
            { (ch.idleAtLeast ch.spacingBits) with
              txq := activateHead ch.txq
              sequencer := ch.sequencer.started ch.retryLimit }).startFrame c .data
                (s.dataChars e)).ChannelsLaw := fun {u} hu hc => by
        rw [State.startFrame, State.setLine, State.updChan_updChan]
        refine hu.updChan (hu.lawful.chan c ?_ (fun _ => ?_) fun _ => (hu.lawful.engine c nofun).congr rfl)
          fun hs => absurd hs (Channel.not_mayStop_of_sending rfl)
        · have hflow := (hu.lawful.flow c).setLine (.of_quiet (by rw [hc, hl]))
            (l := .sending ⟨.data, s.dataChars e, 0, 0, false, .pending⟩) (fun f hf hk => by
              cases hf
              exact absurd hk nofun)
          exact hflow.congr rfl
        · have hcore := (hu.lawful.core c nofun).starts (by rw [hc, hin]) (by rw [hc, hst])
            (by rw [hc, hq]) (Nat.min_le_left 15 (u.chan c).retry.toNat)
            ⟨.data, s.dataChars e, 0, 0, false, .pending⟩
          exact hcore.congr rfl
      split
      · exact hstart (h.congr rfl rfl) rfl
      · exact hstart h rfl
    · exact h

/-! ### The timers -/

/-- The sequencer returns to DEFER with its active entry (R134, R139, R140). -/
theorem toDefer {u : State} (h : s.Lawful)
    (hu : u.LawfulBut none none) (hseq : (u.chan c).sequencer = (s.chan c).sequencer)
    (hq : (u.chan c).txq = (s.chan c).txq) (hl : (u.chan c).lineTx = (s.chan c).lineTx)
    (hm : (u.chan c).mode = (s.chan c).mode)
    (hst : (s.chan c).sequencer.state = .backoff ∨ (s.chan c).sequencer.state = .busyWait ∨
      (s.chan c).sequencer.state = .awaitAck)
    (hle : (s.chan c).sequencer.attempts ≤ (s.chan c).sequencer.limit) :
    (u.updSeq c Sequencer.toDefer).Lawful := by
  have hcore := h.core c nofun
  have hne : ∀ st, st ≠ .backoff → st ≠ .busyWait → st ≠ .awaitAck →
      (s.chan c).sequencer.state ≠ st := by
    rintro st h1 h2 h3 rfl
    rcases hst with hs | hs | hs
    · exact h1 hs
    · exact h2 hs
    · exact h3 hs
  have hidle := hne .idle nofun nofun nofun
  have hdefer := hne .defer nofun nofun nofun
  have hatt := hne .attempt nofun nofun nofun
  refine hu.moved ?_ ?_ ((hcore.line.free hatt).congr hl) ?_ (st := .defer)
    nofun nofun (.inr ?_) none
  · exact (Channel.inService_congr hm).trans (hcore.inService_of_state hidle hdefer hatt)
  · exact (Channel.headActive_congr hq).trans (hcore.queue.2.2.2.1 hidle hdefer)
  · rw [hseq]
    exact hne .completeWait nofun nofun nofun
  · rw [hseq]
    exact hle

/-- BACKOFF and BUSY_WAIT end with the timer (R134, R140). -/
theorem timerEnds (h : s.ChannelsLaw)
    (hst : (s.chan c).sequencer.state = .backoff ∨ (s.chan c).sequencer.state = .busyWait) :
    (s.updSeq c Sequencer.toDefer).ChannelsLaw := by
  have hcore := h.lawful.core c nofun
  refine h.updChan (toDefer h.lawful h.lawful rfl rfl rfl rfl (hst.imp_right .inl)
    (hcore.attempts.2.2 (.inr (.inr hst)))) fun hs => ?_
  obtain ⟨-, hidle | ⟨-, hhead⟩, -⟩ := hs
  · exact absurd hidle nofun
  · have hactive : (s.chan c).headActive = true :=
      hcore.queue.2.2.2.1 (by rcases hst with hs | hs <;> simp [hs])
        (by rcases hst with hs | hs <;> simp [hs])
    exact absurd (hactive.symm.trans hhead) nofun

theorem backoffExpiry (h : s.ChannelsLaw) (ht : exec (.backoffExpiry c) s = .next t) :
    t.ChannelsLaw := by
  rw [exec_backoffExpiry] at ht
  cases ht
  split
  · next hst => exact h.timerEnds (.inl hst)
  · exact h

theorem busyExpiry (h : s.ChannelsLaw) (ht : exec (.busyExpiry c) s = .next t) : t.ChannelsLaw := by
  rw [exec_busyExpiry] at ht
  cases ht
  split
  · next hst => exact h.timerEnds (.inr hst)
  · exact h

theorem txAckTimeouts (h : s.ChannelsLaw) (ht : exec (.txAckTimeouts c) s = .next t) :
    t.ChannelsLaw := by
  rw [exec_txAckTimeouts] at ht
  cases ht
  split
  · next hst =>
    have hcore := h.lawful.core c nofun
    have hcount := h.lawful.count c .txAckTimeouts
    rw [State.ackTimeout_eq]
    split
    · next hmore =>
      exact (toDefer h.lawful hcount (by simp) (by simp) (by simp) (by simp) (.inr (.inr hst))
        (by omega)).settled
    · refine (hcount.claim ((hcore.line.free (by simp [hst])).congr (by simp)) ?_ ?_ _).settled
      · exact (Channel.inService_congr (by simp)).trans
          (hcore.inService_of_state (by simp [hst]) (by simp [hst]) (by simp [hst]))
      · exact (Channel.headActive_congr (by simp)).trans
          (hcore.queue.2.2.2.1 (by simp [hst]) (by simp [hst]))
  · exact h

theorem refreshExpiry (h : s.ChannelsLaw) (ht : exec (.refreshExpiry c) s = .next t) :
    t.ChannelsLaw := by
  rw [exec_refreshExpiry] at ht
  cases ht
  split
  · next hr =>
    have hside := h.lawful.flow c
    have hslot := (hside.law.2.2 hr).2
    refine h.updChan (h.lawful.chan c ⟨?_, fun g hg _ => ?_, nofun, fun hm => ?_⟩
      (fun _ => (h.lawful.core c nofun).congr rfl) fun _ => (h.lawful.engine c nofun).congr rfl)
      fun hs => absurd hs (Channel.not_mayStop_of_flow rfl)
    · exact hside.law.placed (r := false) (fun g hg => absurd (hslot.symm.trans hg) nofun) nofun rfl
    · cases hg
      simp [newFlow, hside.low hr]
    · simp [(hside.rest hm).2.2] at hr
  · exact h

theorem flowBackoffExpiry (h : s.ChannelsLaw) (ht : exec (.flowBackoffExpiry c) s = .next t) :
    t.ChannelsLaw := by
  cases hf : (s.chan c).flow with
  | none =>
    rw [exec_flowBackoffExpiry_of_none hf] at ht
    cases ht
    exact h
  | some g =>
    rw [exec_flowBackoffExpiry_of_some hf] at ht
    cases ht
    split
    · next hp =>
      exact h.updChan (h.lawful.chan c ((h.lawful.flow c).waits hf hp)
        (fun _ => (h.lawful.core c nofun).congr rfl) fun _ => (h.lawful.engine c nofun).congr rfl)
        fun hs => absurd hs (Channel.not_mayStop_of_flow rfl)
    · exact h

end State.ChannelsLaw

/-! ### ABORT -/

theorem Channel.FlowSide.empty {p : Pool} {ch : Channel} (hflow : ch.flow = none)
    (hhold : ch.holdOutstanding = false) (hrefresh : ch.refresh = none)
    (hline : ch.mode = .aborting ∨ ch.FlowFree) : ch.FlowSide p := by
  refine ⟨⟨fun f hf hk hv hm => ?_, by simp [hflow], by simp [hrefresh]⟩, by simp [hflow],
    by simp [hrefresh], fun _ => ⟨hflow, hhold, hrefresh⟩⟩
  exact absurd (hline.resolve_left hm f hf hk) hv

/-- ABORT of a channel whose active entry, if any, is in ATTEMPT (R168, R169). -/
theorem Channel.Core.aborted {ch : Channel} (h : ch.Core) (hno : ch.abortsAtOnce = false) :
    ch.aborted.Core := by
  refine ⟨h.queue, h.attempts, fun _ => ⟨rfl, rfl⟩, nofun, fun _ => ?_, h.line, nofun⟩
  have hno : ¬ ch.abortsAtOnce = true := by simp [hno]
  rw [Channel.abortsAtOnce_iff] at hno
  simp only [not_or, not_and] at hno
  obtain ⟨hb, ha, hw, hc, hd⟩ := hno
  cases hst : ch.sequencer.state with
  | idle => exact .inl hst
  | attempt => exact .inr (.inl hst)
  | defer => exact .inr (.inr ⟨hst, Bool.eq_false_iff.mpr (hd hst)⟩)
  | backoff => exact absurd hst hb
  | awaitAck => exact absurd hst ha
  | busyWait => exact absurd hst hw
  | completeWait => exact absurd hst hc

/-- ABORT's channel once its frame in flight has ended (R72, R168). -/
theorem State.abortStart_chan (s : State) (c : Chan) :
    ∃ fl rf, (((s.updChan c Channel.aborted).dropFilling c).endFrame c .hunt).chan c =
      { (s.chan c).aborted with flow := fl, refresh := rf, engine := .idle .hunt } := by
  have hdrop : ∃ fl rf, ((s.updChan c Channel.aborted).dropFilling c).chan c =
      { (s.chan c).aborted with flow := fl, refresh := rf } := by
    unfold State.dropFilling
    split
    · exact ⟨_, _, (State.release_chan _ _ c).trans (by rw [State.chan_updChan_same])⟩
    · exact ⟨_, _, by rw [State.chan_updChan_same]⟩
    · exact ⟨_, _, by rw [State.chan_updChan_same]⟩
  obtain ⟨fl, rf, hd⟩ := hdrop
  exact ⟨fl, rf, by rw [State.endFrame_chan, if_pos rfl, hd]⟩

/-- The channel whose active entry has completed ABORTED (R170). -/
theorem State.completeAborted_chan (s : State) {c : Chan} (hne : (s.chan c).txq ≠ []) :
    ∃ fl rf, (s.completeAborted c).chan c = { s.chan c with
      flow := fl, refresh := rf, txq := (s.chan c).txq.tail
      sequencer := { Sequencer.reset with limit := (s.chan c).sequencer.limit } } := by
  have hdrop : ∀ (u : State) (p : Page), u.chan c = s.chan c →
      ∃ fl rf, ((u.release p).updChan c fun ch =>
        { ch with
          txq := ch.txq.tail
          sequencer := { Sequencer.reset with limit := ch.sequencer.limit } }).chan c =
        { s.chan c with
          flow := fl, refresh := rf, txq := (s.chan c).txq.tail
          sequencer := { Sequencer.reset with limit := (s.chan c).sequencer.limit } } := by
    intro u p hu
    refine ⟨((u.release p).chan c).flow, ((u.release p).chan c).refresh, ?_⟩
    rw [State.chan_updChan_same, State.release_chan, hu]
  unfold State.completeAborted
  split
  · next hq => exact absurd hq hne
  · dsimp only
    split
    · exact hdrop _ _ rfl
    · exact hdrop _ _ rfl

namespace State.LawfulBut

variable {s : State} {c : Chan}

/-- The active entry completes ABORTED (R170). -/
theorem completeAborted (h : s.LawfulBut (some c) none) (hne : (s.chan c).txq ≠ [])
    (hgone : Channel.Core { s.chan c with
      txq := (s.chan c).txq.tail
      sequencer := { Sequencer.reset with limit := (s.chan c).sequencer.limit } }) :
    (s.completeAborted c).Lawful := by
  have hdrop : ∀ {u : State} (p : Page), u.LawfulBut (some c) none → u.chan c = s.chan c →
      ((u.release p).updChan c fun ch =>
        { ch with
          txq := ch.txq.tail
          sequencer := { Sequencer.reset with limit := ch.sequencer.limit } }).Lawful := by
    intro u p hu hc
    have hrel := hu.release p
    refine (hrel.coreHeld ((hrel.flow c).congr rfl) fun hy => (hrel.engine c hy).congr rfl).coreBack ?_
    rw [State.chan_updChan_same]
    exact hgone.congr (by simp [Channel.coreView, hc])
  unfold State.completeAborted
  split
  · next hq => exact absurd hq hne
  · dsimp only
    split
    · exact hdrop _ (h.congr rfl rfl) rfl
    · exact hdrop _ (h.raise _) rfl

theorem abortStart (h : s.Lawful) (c : Chan) : (s.abortStart c).Lawful := by
  have hcore := h.core c nofun
  have hab : (s.updChan c Channel.aborted).LawfulBut (some c) (some c) :=
    (h.weaken (some c) (some c)).chan c (.empty rfl rfl rfl (.inl rfl)) (fun hx => absurd rfl hx)
      fun hy => absurd rfl hy
  have hend := (hab.dropFilling c).endFrame (.inl rfl)
  obtain ⟨fl, rf, hchan⟩ := s.abortStart_chan c
  unfold State.abortStart
  dsimp only
  split
  · next hat =>
    rw [Channel.abortsAtOnce_iff] at hat
    have hatt : (s.chan c).sequencer.state ≠ .attempt := fun hs => by simp [hs] at hat
    have hhead : (s.chan c).headActive = true := by
      rcases hat with hs | hs | hs | hs | ⟨-, hs⟩
      · exact hcore.queue.2.2.2.1 (by simp [hs]) (by simp [hs])
      · exact hcore.queue.2.2.2.1 (by simp [hs]) (by simp [hs])
      · exact hcore.queue.2.2.2.1 (by simp [hs]) (by simp [hs])
      · exact hcore.queue.2.2.2.1 (by simp [hs]) (by simp [hs])
      · exact hs
    refine hend.completeAborted ?_ ?_ <;> rw [hchan]
    · rintro (hq : (s.chan c).txq = [])
      simp [Channel.headActive, hq] at hhead
    · exact (Channel.Core.headGone (ch := (s.chan c).aborted) hcore.queue.1 hcore.attempts.1
        (fun _ => ⟨rfl, rfl⟩) nofun ((hcore.line.free hatt).congr rfl) nofun (.inl rfl)).congr rfl
  · next hat =>
    refine hend.coreBack ?_
    rw [hchan]
    exact (hcore.aborted (Bool.eq_false_iff.mpr hat)).congr rfl

theorem abortFinish (h : s.Lawful) (hm : (s.chan c).mode = .aborting) :
    (s.abortFinish c).Lawful := by
  have hcore := h.core c nofun
  obtain ⟨hflow, hhold, hrefresh⟩ := (h.flow c).rest (.inr hm)
  obtain ⟨hresp, htimer⟩ := hcore.rest (.inr hm)
  have hquiet : (s.setLine c .quiet).Lawful :=
    h.chan c (.empty hflow hhold hrefresh (.inl hm))
      (fun _ => hcore.setLine (.inl rfl) (.of_free (.of_quiet rfl))) fun _ => (h.engine c nofun).congr rfl
  have hchan : (s.setLine c .quiet).chan c = { s.chan c with lineTx := .quiet } := by
    rw [State.setLine_chan, if_pos rfl]
  -- the channel enters OFF once its sequencer has left ATTEMPT
  have hoff : ∀ {u : State}, u.Lawful → (u.chan c).mode = .aborting → (u.chan c).lineTx = .quiet →
      (u.chan c).sequencer.state ≠ .attempt → (u.updChan c Channel.toOff).Lawful := by
    intro u hu hmode hline hatt
    obtain ⟨hf, -, -⟩ := (hu.flow c).rest (.inr hmode)
    have huc := hu.core c nofun
    refine hu.chan c (.empty hf rfl rfl (.inr (.of_quiet hline)))
      (fun _ => huc.toOff hline (huc.rest (.inr hmode)).1 ?_)
      fun _ => ⟨(hu.engine c nofun).law, fun _ => (hu.engine c nofun).rest (.inr hmode)⟩
    rcases huc.aborting hmode with hs | hs | hs
    · exact .inl hs
    · exact absurd hs hatt
    · exact .inr hs
  unfold State.abortFinish
  dsimp only
  refine State.LawfulBut.congr (s := State.updChan _ c Channel.toOff) ?_ rfl rfl
  split
  · next hst =>
    have hhead : (s.chan c).headActive = true := hcore.queue.2.2.2.1 (by simp [hst]) (by simp [hst])
    have hne : (s.chan c).txq ≠ [] := fun hq => by simp [Channel.headActive, hq] at hhead
    obtain ⟨fl, rf, hdone⟩ := (s.setLine c .quiet).completeAborted_chan (c := c) (by rwa [hchan])
    refine hoff ((hquiet.coreOut c).completeAborted ?_ ?_) ?_ ?_ ?_
    · rw [hchan]
      exact hne
    · rw [hchan]
      exact Channel.Core.headGone (ch := { s.chan c with lineTx := .quiet }) hcore.queue.1
        hcore.attempts.1 hcore.rest (fun _ => rfl) (.of_quiet rfl) hcore.receiver (.inl rfl)
    all_goals rw [hdone, hchan]
    · exact hm
    · exact nofun
  · next hst => exact hoff hquiet (by rw [hchan]; exact hm) (by rw [hchan]) (by rw [hchan]; exact hst)

end State.LawfulBut

end Sys2Proof.Machine

/-!
PROOFS. The law of the channels under the host's commands and accesses, the resets and the clock.
-/
namespace Sys2Proof.Machine

/-! ### Entries that come and go -/

/-- Entries that are not active come and go without a change of the sequencer (R108, R112, R113). -/
theorem Channel.Core.requeue {ch : Channel} (h : ch.Core) {l : List TxEntry}
    (htail : ∀ e ∈ l.tail, e.active = false)
    (hhead : Channel.headActive { ch with txq := l } = ch.headActive) :
    Channel.Core { ch with txq := l } := by
  obtain ⟨⟨-, hatt, hidle, hactive, hout⟩, hattempts, hrest, hoff, haborting, hline, hreceiver⟩ := h
  refine ⟨⟨htail, ?_, ?_, ?_, hout⟩, hattempts, hrest, hoff, ?_, hline, hreceiver⟩ <;> rw [hhead] <;>
    assumption

theorem Channel.MayStop.requeue {ch : Channel} {l : List TxEntry}
    (h : Channel.MayStop { ch with txq := l })
    (hhead : Channel.headActive { ch with txq := l } = ch.headActive) : ch.MayStop := by
  rw [Channel.MayStop, hhead] at h
  exact h

theorem Channel.headActive_append {ch : Channel} {e : TxEntry} (he : e.active = false) :
    Channel.headActive { ch with txq := ch.txq ++ [e] } = ch.headActive := by
  cases hq : ch.txq with
  | nil => simp [Channel.headActive, hq, he]
  | cons a l => simp [Channel.headActive, hq]

theorem tail_append_inactive {l : List TxEntry} (h : ∀ a ∈ l.tail, a.active = false) {e : TxEntry}
    (he : e.active = false) : ∀ a ∈ (l ++ [e]).tail, a.active = false := by
  cases l with
  | nil => simp
  | cons x xs =>
    intro a ha
    rcases List.mem_append.mp ha with ha | ha
    · exact h a ha
    · exact (List.mem_singleton.mp ha) ▸ he

section
variable {ch : Channel} (h : ∀ e ∈ ch.txq.tail, e.active = false)
include h

theorem Channel.headActive_eraseP (p : TxEntry → Bool) (hp : ∀ e, p e = true → e.active = false) :
    Channel.headActive { ch with txq := ch.txq.eraseP p } = ch.headActive := by
  cases hq : ch.txq with
  | nil => simp [Channel.headActive, hq]
  | cons e es =>
    rw [hq] at h
    by_cases hpe : p e = true
    · rw [List.eraseP_cons_of_pos hpe]
      cases es with
      | nil => simp [Channel.headActive, hq, hp e hpe]
      | cons a l => simp [Channel.headActive, hq, hp e hpe, h a (by simp)]
    · rw [List.eraseP_cons_of_neg hpe]
      simp [Channel.headActive, hq]

theorem Channel.tail_eraseP (p : TxEntry → Bool) : ∀ e ∈ (ch.txq.eraseP p).tail, e.active = false := by
  cases hq : ch.txq with
  | nil => simp
  | cons e es =>
    rw [hq] at h
    by_cases hpe : p e = true
    · rw [List.eraseP_cons_of_pos hpe]
      exact fun a ha => h a (List.mem_of_mem_tail ha)
    · rw [List.eraseP_cons_of_neg hpe]
      exact fun a ha => h a (List.mem_of_mem_eraseP ha)

/-- FLUSH leaves the active entry alone (R113). -/
theorem Channel.filter_active : ch.txq.filter (fun e => e.active) = ch.txq.take 1 ∨
    (ch.txq.filter (fun e => e.active) = [] ∧ ch.headActive = false) := by
  cases hq : ch.txq with
  | nil => exact .inl rfl
  | cons e es =>
    rw [hq] at h
    have hes : es.filter (fun e => e.active) = [] :=
      List.filter_eq_nil_iff.mpr fun a ha => by simp [h a ha]
    cases he : e.active with
    | true => simp [he, hes]
    | false => simp [he, hes, Channel.headActive, hq]

theorem Channel.headActive_filter :
    Channel.headActive { ch with txq := ch.txq.filter fun e => e.active } = ch.headActive := by
  obtain hf | ⟨hf, hhead⟩ := Channel.filter_active h
  · cases hq : ch.txq <;> simp_all [Channel.headActive]
  · rw [hhead]
    simp [Channel.headActive, hf]

theorem Channel.tail_filter : ∀ e ∈ (ch.txq.filter fun e => e.active).tail, e.active = false := by
  obtain hf | ⟨hf, -⟩ := Channel.filter_active h
  · rw [hf]
    cases ch.txq <;> simp
  · simp [hf]

end

theorem Channel.Core.withdrawn {ch : Channel} (h : ch.Core) : ch.headWithdrawn.Core := by
  rw [Channel.headWithdrawn_eq]
  split
  · next hw =>
    obtain ⟨hq, hst⟩ := hw
    have hhead : ch.headActive = false := by simp [Channel.headActive, hq]
    have hfree := h.line.free (by simp [hst])
    obtain ⟨⟨htail, hatt, -, -, hout⟩, ⟨hlim, hmax, hless⟩, hrest, hoff, -, -, hreceiver⟩ := h
    refine ⟨⟨htail, hatt, fun _ => hhead, fun hne => absurd rfl hne, ?_⟩, ⟨hlim, hmax, fun _ =>
      hless (.inr (.inl hst))⟩, hrest, fun hm => ⟨(hoff hm).1, rfl⟩, fun _ => .inl rfl,
      hfree.line _ _, hreceiver⟩
    simpa [hst] using hout
  · exact h

theorem Channel.MayStop.withdrawn {ch : Channel} (h : ch.headWithdrawn.MayStop) : ch.MayStop := by
  rw [Channel.headWithdrawn_eq] at h
  split at h
  · next hw =>
    obtain ⟨hq, hst⟩ := hw
    obtain ⟨hm, -, hrest⟩ := h
    exact ⟨hm, .inr ⟨hst, by simp [Channel.headActive, hq]⟩, hrest⟩
  · exact h

theorem Channel.Core.workArrived {ch : Channel} (h : ch.Core) : ch.workArrived.Core := by
  unfold Channel.workArrived
  split
  · next hw =>
    obtain ⟨hm, -, hst⟩ := hw
    have hfree := h.line.free (by simp [hst])
    obtain ⟨⟨htail, hatt, hidle, -, hout⟩, ⟨hlim, hmax, hless⟩, hrest, -, -, -, hreceiver⟩ := h
    refine ⟨⟨htail, hatt, nofun, fun _ hne => absurd rfl hne, ?_⟩, ⟨hlim, hmax, fun _ =>
      hless (.inl hst)⟩, hrest, fun hoff => absurd (hm.symm.trans hoff) nofun,
      fun hab => absurd (hm.symm.trans hab) nofun, hfree.line _ _, hreceiver⟩
    simpa [hst, Sequencer.toDefer] using hout
  · exact h

theorem Channel.workArrived_eq (ch : Channel) :
    ch.workArrived = { ch with sequencer := ch.workArrived.sequencer } := by
  unfold Channel.workArrived
  split <;> rfl

theorem Channel.MayStop.workArrived {ch : Channel} (h : ch.workArrived.MayStop) : ch.MayStop := by
  unfold Channel.workArrived at h
  split at h
  · next hw =>
    obtain ⟨hm, -⟩ := h
    exact absurd (hw.1.symm.trans hm) nofun
  · exact h

theorem Channel.headWithdrawn_flow {p : Pool} {ch : Channel} (h : ch.FlowSide p) :
    ch.headWithdrawn.FlowSide p := by
  rw [Channel.headWithdrawn_eq]
  exact h.congr rfl

theorem Channel.headWithdrawn_engine {ch : Channel} (h : ch.EngineSide) :
    ch.headWithdrawn.EngineSide := by
  rw [Channel.headWithdrawn_eq]
  exact h.congr rfl

/-! ### Commands over chains and queues -/

namespace State.ChannelsLaw

variable {s : State}

theorem done (h : s.ChannelsLaw) (k : StatusCode) : (s.done k).ChannelsLaw := h.congr rfl rfl

theorem allocBody (h : s.ChannelsLaw) : s.allocBody.ChannelsLaw := by
  have hpages : ∀ {u : State} (n : Nat), u.Lawful → (u.allocPages n).Lawful := fun n hu => by
    unfold State.allocPages
    split
    · split
      · exact hu.done _
      · exact State.LawfulBut.congr (hu.grant .held n) rfl rfl
    · exact hu.done _
  unfold State.allocBody
  dsimp only
  split
  · exact h.done _
  · exact (hpages _ h.lawful.serveAll).settled

theorem releaseBody (h : s.ChannelsLaw) : s.releaseBody.ChannelsLaw := by
  unfold State.releaseBody
  dsimp only
  split
  · refine State.LawfulBut.settled (State.LawfulBut.done ?_ .ok)
    exact State.LawfulBut.congr (h.lawful.release (s.argByte 0)) (by simp) (by simp)
  · exact h.done _

theorem seekBody (h : s.ChannelsLaw) : s.seekBody.ChannelsLaw := by
  unfold State.seekBody
  dsimp only
  split
  · exact h.done _
  · split <;> exact h.congr rfl rfl

theorem takeBody (h : s.ChannelsLaw) : s.takeBody.ChannelsLaw := by
  cases hq : s.rfq with
  | nil =>
    rw [State.takeBody, hq]
    exact h.done _
  | cons e rest =>
    rw [State.takeBody, hq]
    exact h.congr (by simp [State.attach]) (by simp [State.attach])

theorem submitAccept (h : s.ChannelsLaw) (c : Chan) : (s.submitAccept c).ChannelsLaw := by
  have he : (s.submitEntry c).active = false := rfl
  have hhead := Channel.headActive_append (ch := s.chan c) he
  have hcore := ((h.lawful.core c nofun).requeue
    (tail_append_inactive (h.lawful.core c nofun).queue.1 he) hhead)
  rw [State.submitAccept_eq s c rfl]
  refine State.ChannelsLaw.congr (s := s.updChan c fun ch => Channel.workArrived
    { ch with txq := ch.txq ++ [s.submitEntry c], seqCounter := ch.seqCounter + 1 }) ?_ rfl rfl
  refine h.updChan (h.lawful.chan c ?_ (fun _ => Channel.Core.workArrived (hcore.congr rfl)) fun _ => ?_)
    fun hs => hs.workArrived.requeue hhead
  · rw [Channel.workArrived_eq]
    exact (h.lawful.flow c).congr rfl
  · rw [Channel.workArrived_eq]
    exact (h.lawful.engine c nofun).congr rfl

theorem submitBody (h : s.ChannelsLaw) : s.submitBody.ChannelsLaw := by
  unfold State.submitBody
  dsimp only
  repeat' split
  case h_2.isFalse.isFalse.isFalse => exact h.submitAccept _
  all_goals exact h.done _

/-- An entry that is not active is taken out of its queue (R112). -/
theorem withdraw (h : s.ChannelsLaw) (c : Chan) {p : TxEntry → Bool}
    (hp : ∀ e, p e = true → e.active = false) :
    (s.updChan c fun ch => Channel.headWithdrawn { ch with txq := ch.txq.eraseP p }).ChannelsLaw := by
  have htail := (h.lawful.core c nofun).queue.1
  have hhead := Channel.headActive_eraseP htail p hp
  have hcore := (h.lawful.core c nofun).requeue (Channel.tail_eraseP htail p) hhead
  exact h.updChan (h.lawful.chan c (Channel.headWithdrawn_flow ((h.lawful.flow c).congr rfl))
    (fun _ => hcore.withdrawn) fun _ => Channel.headWithdrawn_engine ((h.lawful.engine c nofun).congr rfl))
    fun hs => hs.withdrawn.requeue hhead

theorem cancelBody (h : s.ChannelsLaw) : s.cancelBody.ChannelsLaw := by
  unfold State.cancelBody
  dsimp only
  split
  · exact h.done _
  · next c _ =>
    split
    · next e _ =>
      have hown : (s.setOwner e.head .held).ChannelsLaw := h.congr rfl rfl
      have hgone := hown.withdraw c (p := fun e => !e.active && e.tag == s.argByte 1)
        fun e he => by simpa using (Bool.and_eq_true_iff.mp he).1
      exact hgone.congr rfl rfl
    · split <;> exact h.done _

theorem flushBody (h : s.ChannelsLaw) : s.flushBody.ChannelsLaw := by
  unfold State.flushBody
  dsimp only
  split
  · exact h.done _
  · next c _ =>
    have htail := (h.lawful.core c nofun).queue.1
    have hcore := (h.lawful.core c nofun).requeue (Channel.tail_filter htail)
      (Channel.headActive_filter htail)
    have hgone : (s.updChan c fun ch =>
        Channel.headWithdrawn { ch with txq := ch.txq.filter fun e => e.active }).Lawful :=
      h.lawful.chan c (Channel.headWithdrawn_flow ((h.lawful.flow c).congr rfl)) (fun _ => hcore.withdrawn)
        fun _ => Channel.headWithdrawn_engine ((h.lawful.engine c nofun).congr rfl)
    refine State.LawfulBut.settled (State.LawfulBut.done ?_ .ok)
    exact (hgone.releaseAll _).congr rfl rfl

theorem servePlace (h : s.Lawful) : s.servePlace.Lawful := by
  unfold State.servePlace
  split
  · exact h
  · next c hnext =>
    split
    · exact h
    · next o ho =>
      have hplace : State.LawfulBut none none { s with lastTcq := c } := h.congr rfl rfl
      have hst : (s.chan c).sequencer.state = .completeWait :=
        (h.core c nofun).queue.2.2.2.2.mp (by simp [ho])
      exact hplace.finishEntry ((h.core c nofun).line.free (by simp [hst])) o

theorem popdoneBody (h : s.ChannelsLaw) : s.popdoneBody.ChannelsLaw := by
  unfold State.popdoneBody
  split
  · exact h.done _
  · refine State.LawfulBut.settled (State.LawfulBut.done (servePlace ?_) .ok)
    exact h.lawful.congr (by simp) (by simp)

/-! ### Channel control -/

theorem enableBody (h : s.ChannelsLaw) : s.enableBody.ChannelsLaw := by
  unfold State.enableBody
  split
  · exact h.done _
  · next c _ =>
    split
    · next hm =>
      have hcore := h.lawful.core c nofun
      obtain ⟨hl, hst⟩ := hcore.off hm
      obtain ⟨hresp, -⟩ := hcore.rest (.inl hm)
      obtain ⟨hflow, hhold, hrefresh⟩ := (h.lawful.flow c).rest (.inl hm)
      have hside : (s.chan c).enabled.FlowSide s.pool := by
        rw [Channel.enabled_eq]
        exact .empty hflow hhold hrefresh (.inr (.of_quiet hl))
      have hrun : (s.chan c).enabled.mode = .run := by rw [Channel.enabled_eq]
      refine (h.updChan (h.lawful.chan c hside (fun _ => Channel.Core.workArrived ?_) fun _ => ?_)
        fun hs => absurd (hrun.symm.trans hs.1) nofun).done .ok
      · exact ⟨hcore.queue, hcore.attempts, by simp, nofun, nofun, .of_free (.of_quiet hl),
          by simp [Channel.ReceiverLaw, hresp]⟩
      · rw [Channel.enabled_eq]
        exact .of_inService Channel.reset_law.1 rfl
    · exact h.done _

theorem disableBody (h : s.ChannelsLaw) : s.disableBody.ChannelsLaw := by
  unfold State.disableBody
  split
  · exact h.done _
  · next c _ =>
    split
    · next hm =>
      have hno : ∀ ch : Channel, ch.mode = .stopping → ¬ (ch.mode = .off ∨ ch.mode = .aborting) :=
        fun ch h => by simp [h]
      have hcore := h.lawful.core c nofun
      have hside := h.lawful.flow c
      refine State.LawfulBut.settled (State.LawfulBut.done (h.lawful.chan c ?_ (fun _ => ?_)
        fun _ => ⟨(h.lawful.engine c nofun).law, fun h => absurd h (hno _ rfl)⟩) .ok)
      · refine ⟨⟨fun f hf hk hv _ => ?_, hside.law.2⟩, hside.follows, hside.low,
          fun h => absurd h (hno _ rfl)⟩
        exact hside.law.1 f hf hk hv (by simp [hm])
      · exact ⟨hcore.queue, hcore.attempts, fun h => absurd h (hno _ rfl), nofun, nofun, hcore.line,
          hcore.receiver⟩
    · exact h.done _

theorem abortBody (h : s.ChannelsLaw) : s.abortBody.ChannelsLaw := by
  unfold State.abortBody
  split
  · exact h.done _
  · next c _ =>
    have hstart := h.lawful.abortStart c
    split
    · dsimp only
      split
      · exact (hstart.abortFinish (s.abortStart_mode c)).settled
      · exact State.LawfulBut.settled (hstart.congr rfl rfl)
    · exact h.done _

theorem abortComplete (h : s.ChannelsLaw) (c : Chan) :
    (if (s.chan c).mode = .aborting then (s.abortFinish c).settle else s).ChannelsLaw := by
  split
  · next hm => exact (h.lawful.abortFinish hm).settled
  · exact h

/-! ### Tables, counters and accesses -/

theorem clearseqBody (h : s.ChannelsLaw) : s.clearseqBody.ChannelsLaw := h.congr rfl rfl

theorem stwriteBody (h : s.ChannelsLaw) : s.stwriteBody.ChannelsLaw := by
  unfold State.stwriteBody
  split
  · exact h.done _
  · split <;> exact h.congr rfl rfl

theorem streadBody (h : s.ChannelsLaw) : s.streadBody.ChannelsLaw := by
  unfold State.streadBody
  split
  · exact h.done _
  · exact h.congr (by simp) (by simp)

/-- A change of a channel's registers and counters. -/
theorem registers (h : s.ChannelsLaw) (c : Chan) {f : Channel → Channel}
    (hf : ∀ ch, f ch = { ch with
      ownAddr := (f ch).ownAddr, div := (f ch).div, flags := (f ch).flags, spacing := (f ch).spacing
      gapLim := (f ch).gapLim, retry := (f ch).retry, backoff := (f ch).backoff
      ackTo := (f ch).ackTo, busyDly := (f ch).busyDly, counters := (f ch).counters }) :
    (s.updChan c f).ChannelsLaw := by
  refine h.updChan (h.lawful.chan c ?_ (fun _ => ?_) fun _ => ?_) fun hs => ?_
  · rw [hf]; exact (h.lawful.flow c).congr rfl
  · rw [hf]; exact (h.lawful.core c nofun).congr rfl
  · rw [hf]; exact (h.lawful.engine c nofun).congr rfl
  · rw [hf] at hs; exact hs

theorem counterBody (h : s.ChannelsLaw) : s.counterBody.ChannelsLaw := by
  unfold State.counterBody
  split
  · next c k _ _ =>
    have hres : ∀ l, (s.loadRes 0 l).ChannelsLaw := fun l => h.congr (by simp) (by simp)
    refine State.ChannelsLaw.done ?_ .ok
    split
    · exact (hres _).registers c fun _ => rfl
    · exact hres _
  · exact h.done _

theorem dataReadOp (h : s.ChannelsLaw) : s.dataReadOp.ChannelsLaw := by
  unfold State.dataReadOp
  split <;> exact h.congr (by simp) (by simp)

theorem dataWriteOp (h : s.ChannelsLaw) (v : Byte) : (s.dataWriteOp v).ChannelsLaw := by
  unfold State.dataWriteOp
  split <;> exact h.congr (by simp) (by simp)

theorem hostRead (h : s.ChannelsLaw) (off : Offset) : (s.hostRead off).ChannelsLaw := by
  unfold State.hostRead
  split
  · exact h.dataReadOp
  · unfold State.snapshot
    split <;> exact h.congr rfl rfl

theorem hostWrite (h : s.ChannelsLaw) {off : Offset} (hw : off.writeHasOwnRow = false) (v : Byte) :
    (s.hostWrite off v).ChannelsLaw := by
  rw [State.hostWrite, if_neg (by simp [hw])]
  unfold State.registerWriteOp
  split
  case h_15 | h_16 | h_17 | h_18 | h_19 | h_20 | h_21 | h_22 | h_23 | h_24 | h_25 =>
    exact h.registers _ fun _ => rfl
  all_goals exact h.congr rfl rfl

end State.ChannelsLaw

end Sys2Proof.Machine

/-!
PROOFS. The law of the channels under the resets and the clock, and so under every step (O57).
-/
namespace Sys2Proof.Machine

/-! ### The resets -/

/-- A part in OFF at every channel as after pin reset, registers aside (R191, R193). -/
theorem State.channelsLaw_of_reset {s : State} (hpool : s.pool = .normal)
    (hc : ∀ c, s.chan c = { Channel.reset with
      ownAddr := (s.chan c).ownAddr, div := (s.chan c).div, flags := (s.chan c).flags
      spacing := (s.chan c).spacing, gapLim := (s.chan c).gapLim, retry := (s.chan c).retry
      backoff := (s.chan c).backoff, ackTo := (s.chan c).ackTo, busyDly := (s.chan c).busyDly
      rxd := (s.chan c).rxd }) : s.ChannelsLaw := by
  obtain ⟨hflow, hcore, hengine⟩ := (Channel.law_iff .normal Channel.reset).mp
    ⟨Channel.reset_law, nofun, nofun⟩
  refine State.LawfulBut.channelsLaw ⟨fun c => ?_, fun c _ => ?_, fun c _ => ?_⟩ fun c => ?_ <;> rw [hc]
  · rw [hpool]
    exact hflow.congr rfl
  · exact hcore.congr rfl
  · exact hengine.congr rfl
  · rfl

theorem State.softReset_channelsLaw (s : State) : s.softReset.ChannelsLaw :=
  State.channelsLaw_of_reset rfl fun c => by
    simp only [State.chan_def, State.softReset, Quad.get_map]
    rfl

theorem State.pinReset_channelsLaw (s : State) : s.pinReset.ChannelsLaw :=
  State.channelsLaw_of_reset rfl fun c => by
    simp only [State.chan_def, State.pinReset, Quad.get_map]

/-! ### The clock -/

/-- A sample tick leaves a line transmitter QUIET, or with its frame's kind and verdict (R126). -/
theorem Channel.tickLine_lineTx (ch : Channel) :
    (ch.lineTx = .quiet ∧ ch.tickLine.lineTx = .quiet) ∨
      ∃ f g, ch.lineTx = .sending f ∧ ch.tickLine.lineTx = .sending g ∧ g.kind = f.kind ∧
        g.verdict = f.verdict := by
  unfold Channel.tickLine
  split
  · next h => exact .inl ⟨h, h⟩
  · next f h =>
    refine .inr ⟨f, ?_⟩
    split
    · exact ⟨_, h, rfl, rfl, rfl⟩
    · split <;> exact ⟨_, h, rfl, rfl, rfl⟩

theorem Channel.tickReceiver_rx {ch : Channel} (h : ch.rx = .looking ∨ ch.rx = .candidate) :
    ch.tickReceiver.rx = .looking ∨ ch.tickReceiver.rx = .candidate := by
  rcases h with h | h
  · rw [Channel.tickReceiver_of_looking h]
    split
    · exact .inl h
    · exact .inr rfl
  · rw [Channel.tickReceiver_of_candidate h]
    split
    · exact .inr h
    · exact .inl rfl

theorem Channel.FlowSide.timed {p : Pool} {ch : Channel} (h : ch.FlowSide p) (tick : Nat → Nat) :
    Channel.FlowSide p { ch with
      flow := ch.flow.map fun f => { f with timer := f.timer.map tick }
      refresh := ch.refresh.map tick } := by
  obtain ⟨⟨hline, hslot, htimer⟩, hfollows, hlow, hrest⟩ := h
  have hof : ∀ g, (ch.flow.map fun f => { f with timer := f.timer.map tick }) = some g →
      ∃ f, ch.flow = some f ∧ { f with timer := f.timer.map tick } = g := fun g hg => by
    simpa using hg
  refine ⟨⟨fun f hf hk hv hm => ?_, fun g hg => ?_, fun hr => ?_⟩, fun g hg => ?_, fun hr => ?_,
    fun hm => ?_⟩
  · obtain ⟨g, hg, hp⟩ := hline f hf hk hv hm
    exact ⟨{ g with timer := g.timer.map tick }, by simp [hg], hp⟩
  · obtain ⟨f, hf, rfl⟩ := hof g hg
    have hlaw := hslot f hf
    simpa using hlaw
  · obtain ⟨hhold, hnone⟩ := htimer (by simpa using hr)
    exact ⟨hhold, by simp [hnone]⟩
  · obtain ⟨f, hf, rfl⟩ := hof g hg
    exact hfollows f hf
  · exact hlow (by simpa using hr)
  · obtain ⟨hflow, hhold, hrefresh⟩ := hrest hm
    exact ⟨by simp [hflow], hhold, by simp [hrefresh]⟩

theorem Channel.Core.timed {ch : Channel} (h : ch.Core) (tick : Nat → Nat) (gap : Response → Response)
    {rx : Receiver}
    (hrx : ch.rx = .looking ∨ ch.rx = .candidate → rx = .looking ∨ rx = .candidate) :
    Channel.Core { ch with
      rx := rx, response := ch.response.map gap
      sequencer := { ch.sequencer with timer := ch.sequencer.timer.map tick }
      holdTimer := ch.holdTimer.map tick } := by
  obtain ⟨hqueue, hattempts, hrest, hoff, haborting, hline, hreceiver⟩ := h
  refine ⟨hqueue, hattempts, fun hm => ?_, hoff, haborting, hline, fun hr => ?_⟩
  · obtain ⟨hresp, htimer⟩ := hrest hm
    exact ⟨by simp [hresp], by simp [htimer]⟩
  · exact hrx (hreceiver (by simpa using hr))

/-- The line transmitter after a sample tick. -/
theorem Channel.FlowSide.ticked {p : Pool} {ch : Channel} (h : ch.FlowSide p) :
    Channel.FlowSide p { ch with lineTx := ch.tickLine.lineTx } := by
  obtain ⟨hl, hl'⟩ | ⟨f, g, hf, hg, hk, hv⟩ := ch.tickLine_lineTx
  · rw [hl', ← hl]
    exact h
  · rw [hg]
    exact h.goesOn hf hk (by rw [hv])

theorem Channel.Core.ticked {ch : Channel} (h : ch.Core) :
    Channel.Core { ch with lineTx := ch.tickLine.lineTx } := by
  obtain ⟨hl, hl'⟩ | ⟨f, g, hf, hg, hk, hv⟩ := ch.tickLine_lineTx
  · rw [hl', ← hl]
    exact h
  · rw [hg]
    refine h.setLine (.inr (h.ne_off_of_sending hf)) fun f' hf' hk' hv' => ?_
    cases hf'
    exact h.line f hf (hk ▸ hk') (hv ▸ hv')

theorem Channel.sampleTick_flowSide {p : Pool} {ch : Channel} (h : ch.FlowSide p) :
    ch.sampleTick.FlowSide p := by
  rw [Channel.sampleTick_eq]
  exact (h.ticked.timed fun n => n - 1).congr rfl

theorem Channel.sampleTick_core {ch : Channel} (h : ch.Core) : ch.sampleTick.Core := by
  rw [Channel.sampleTick_eq]
  exact (h.ticked.timed (fun n => n - 1) (fun r => { r with gap := r.gap - 1 })
    ch.tickReceiver_rx).congr rfl

theorem Channel.sampleTick_mayStop {ch : Channel} (h : ch.sampleTick.MayStop) : ch.MayStop := by
  rw [Channel.sampleTick_eq] at h
  obtain ⟨hm, hseq, hresp, hflow, hline, hparser⟩ := h
  refine ⟨hm, hseq, by simpa using hresp, by simpa using hflow, ?_, hparser⟩
  obtain ⟨hl, -⟩ | ⟨f, g, -, hg, -⟩ := ch.tickLine_lineTx
  · exact hl
  · exact absurd (hline.symm.trans hg) nofun

/-- A REFCLK period leaves a channel as it is, counts it, or takes a sample tick (R2). -/
theorem Channel.clock_cases (ch : Channel) :
    ch.clock = ch ∨ (∃ n, ch.clock = { ch with prescale := n }) ∨
      ch.clock = Channel.sampleTick { ch with prescale := 0 } := by
  unfold Channel.clock
  split
  · exact .inl rfl
  · split
    · exact .inr (.inl ⟨_, rfl⟩)
    · exact .inr (.inr rfl)

theorem State.ChannelsLaw.advance {s : State} (h : s.ChannelsLaw) : s.advance.ChannelsLaw := by
  have hclock : ∀ c, (s.advance.chan c).FlowSide s.pool ∧ (s.advance.chan c).Core ∧
      (s.advance.chan c).EngineSide ∧ ((s.advance.chan c).MayStop → (s.chan c).MayStop) := by
    intro c
    have hflow := h.lawful.flow c
    have hcore := h.lawful.core c nofun
    have hengine := h.lawful.engine c nofun
    rw [State.chan_advance, State.clockChan]
    obtain hc | ⟨n, hc⟩ | hc := Channel.clock_cases { s.chan c with rxd := s.rxdNext c } <;> rw [hc]
    · exact ⟨hflow.congr rfl, hcore.congr rfl, hengine.congr rfl, id⟩
    · exact ⟨hflow.congr rfl, hcore.congr rfl, hengine.congr rfl, id⟩
    · refine ⟨Channel.sampleTick_flowSide (hflow.congr rfl), Channel.sampleTick_core (hcore.congr rfl), ?_,
        Channel.sampleTick_mayStop⟩
      rw [Channel.sampleTick_eq]
      exact hengine.congr rfl
  refine State.LawfulBut.channelsLaw ⟨fun c => (hclock c).1, fun c _ => (hclock c).2.1,
    fun c _ => (hclock c).2.2.1⟩ fun c => Channel.stopReady_false fun hs => ?_
  have hno := h.settled c
  rw [((s.chan c).stopReady_iff).mpr ((hclock c).2.2.2 hs)] at hno
  exact absurd hno nofun

/-! ### Every step -/

namespace State.ChannelsLaw

variable {s t : State}

theorem strobe (h : s.ChannelsLaw) {f : State → State} (hf : (f s).ChannelsLaw) :
    (s.strobe f).ChannelsLaw := State.strobe_keeps h (h.raise _) fun _ => hf

theorem access (h : s.ChannelsLaw) {f : State → State} (hf : (f s).ChannelsLaw) :
    (s.access f).ChannelsLaw := State.access_keeps h fun _ => hf

/-- Every command keeps the law of the channels. -/
theorem exec (h : s.ChannelsLaw) {i : Instr} (hw : i.wellFormed = true)
    (ht : Machine.exec i s = .next t) : t.ChannelsLaw := by
  cases i
  case alloc => cases ht; exact h.strobe h.allocBody
  case release => cases ht; exact h.strobe h.releaseBody
  case seek => cases ht; exact h.strobe h.seekBody
  case take => cases ht; exact h.strobe h.takeBody
  case submit => cases ht; exact h.strobe h.submitBody
  case cancel => cases ht; exact h.strobe h.cancelBody
  case flush => cases ht; exact h.strobe h.flushBody
  case popdone => cases ht; exact h.strobe h.popdoneBody
  case enable => cases ht; exact h.strobe h.enableBody
  case disable => cases ht; exact h.strobe h.disableBody
  case abort => cases ht; exact h.strobe h.abortBody
  case clearseq => cases ht; exact h.strobe h.clearseqBody
  case stwrite => cases ht; exact h.strobe h.stwriteBody
  case stread => cases ht; exact h.strobe h.streadBody
  case counter => cases ht; exact h.strobe h.counterBody
  case srst => cases ht; exact h.strobe (s.softReset_channelsLaw.done .ok)
  case dataRead => cases ht; exact h.access h.dataReadOp
  case dataWrite v => cases ht; exact h.access (h.dataWriteOp v)
  case eventWrite high v => cases ht; exact h.access (h.congr rfl rfl)
  case lowByteReadSnapshot off => cases ht; exact h.access (h.hostRead off)
  case registerWrite off v =>
    cases ht
    exact h.access (h.hostWrite (by simpa [Instr.wellFormed] using hw) v)
  case pinReset => cases ht; exact s.pinReset_channelsLaw
  case characterReceived c z => cases ht; exact h.lineCharacter c z
  case receiveRequestServed => cases ht; exact h.lawful.serveOne.settled
  case gapExpiry c => exact h.gapExpiry ht
  case skipGapExit c => exact h.skipGapExit ht
  case lineFault c => exact h.lineFault ht
  case responseStart c => exact h.responseStart ht
  case flowFrameStart c => exact h.flowFrameStart ht
  case attemptStart c => exact h.attemptStart ht
  case readbackCharacter c z => cases ht; exact h.lineCharacter c z
  case missingReadback c => exact h.missingReadback ht
  case lineTransmitterQuiet c => exact h.lineTransmitterQuiet ht
  case collisionReported c => exact h.collisionReported ht
  case abortComplete c => cases ht; exact h.abortComplete c
  case backoffExpiry c => exact h.backoffExpiry ht
  case txAckTimeouts c => exact h.txAckTimeouts ht
  case busyExpiry c => exact h.busyExpiry ht
  case holdTimerExpiry c => cases ht; exact h.holdTimerExpiry c
  case refreshExpiry c => exact h.refreshExpiry ht
  case flowBackoffExpiry c => exact h.flowBackoffExpiry ht
  case startBitDetected c => cases ht; exact h.startBitDetected
  case lineSampledHigh c => exact h.lineSampledHigh ht

end State.ChannelsLaw

/-- Settles O57, from the commands and the clock: each keeps the flow side, the core and the engine of
every channel, and leaves none to stop. -/
theorem stepKeepsChannelsLaw : Obligations.StepKeepsChannelsLaw :=
  fun _ _ hs ht => step_keeps (P := State.ChannelsLaw) (fun _ _ h => h.congr rfl rfl)
    (fun _ _ _ hw h ht => h.exec hw ht) (fun _ h => h.advance) hs ht

end Sys2Proof.Machine

/-!
PROOFS. Chains in a page table (R18 to R26): what a chain is, that chains are apart, and that a grant, a
release and a change of holder keep every page accounted for.
-/
namespace Sys2Proof.Machine

/-! ### Chains -/

/-- The pages of the chain with a head page, in chain order (R19). -/
def PageTable.chain (t : PageTable) (h : Page) : List Page := t.walk Config.maxChain h

/-- The part of the law of pages that speaks of the page table alone (R18, R19). -/
structure PageTable.Linked (t : PageTable) : Prop where
  wf : t.wf
  freeRecord : ∀ p, (t.record p).owner = .free → t.record p = PageRecord.free
  linkOk : ∀ p q, (t.record p).link = some q →
    (t.record q).owner = (t.record p).owner ∧ (t.record q).headMark = false
  linkInj : ∀ p p' q, (t.record p).link = some q → (t.record p').link = some q → p = p'
  reached : ∀ p, (t.record p).owner ≠ .free → ∃ h, (t.record h).headMark = true ∧ p ∈ t.chain h
  ends : ∀ h, (t.record h).headMark = true →
    ∃ p, (t.chain h).getLast? = some p ∧ (t.record p).link = none

namespace PageTable

theorem head_mem_chain (t : PageTable) (h : Page) : h ∈ t.chain h := List.mem_cons_self

theorem ne_of_not_mem_chain {t : PageTable} {h h' : Page} (hn : h' ∉ t.chain h) : h' ≠ h :=
  fun heq => hn (heq ▸ t.head_mem_chain h)

/-- Every page of a walk but the first is linked from one before it. -/
theorem mem_walk {t : PageTable} {n : Nat} {h p : Page} (hp : p ∈ t.walk n h) :
    p = h ∨ ∃ q ∈ t.walk n h, (t.record q).link = some p := by
  induction n generalizing h with
  | zero => exact absurd hp List.not_mem_nil
  | succ n ih =>
    cases hl : (t.record h).link with
    | none =>
      simp only [walk, hl, List.mem_cons, List.not_mem_nil, or_false] at hp
      exact .inl hp
    | some q =>
      simp only [walk, hl, List.mem_cons] at hp ⊢
      rcases hp with hp | hp
      · exact .inl hp
      · right
        obtain rfl | ⟨r, hr, hlink⟩ := ih hp
        · exact ⟨h, .inl rfl, hl⟩
        · exact ⟨r, .inr hr, hlink⟩

/-- A walk that ends at a page without a link has every page its pages link to. -/
theorem walk_closed {t : PageTable} {n : Nat} {h p : Page} (hlast : (t.walk n h).getLast? = some p)
    (hend : (t.record p).link = none) {x y : Page} (hx : x ∈ t.walk n h)
    (hl : (t.record x).link = some y) : y ∈ t.walk n h := by
  induction n generalizing h with
  | zero => exact absurd hx List.not_mem_nil
  | succ n ih =>
    cases hlh : (t.record h).link with
    | none =>
      simp only [walk, hlh, List.mem_cons, List.not_mem_nil, or_false] at hx
      subst hx
      exact absurd (hlh.symm.trans hl) nofun
    | some q =>
      simp only [walk, hlh, List.mem_cons] at hx hlast ⊢
      cases n with
      | zero =>
        simp only [walk, List.getLast?_singleton, Option.some.injEq] at hlast
        subst hlast
        exact absurd (hlh.symm.trans hend) nofun
      | succ n =>
        rw [List.getLast?_cons_of_ne_nil (by simp [walk])] at hlast
        right
        rcases hx with rfl | hx
        · obtain rfl : q = y := Option.some.inj (hlh.symm.trans hl)
          exact List.mem_cons_self
        · exact ih hlast hx

/-- Each page of a walk is linked to the next. -/
theorem walk_link_getElem {t : PageTable} {n : Nat} {h : Page} {i : Nat}
    (hi : i + 1 < (t.walk n h).length) :
    (t.record (t.walk n h)[i]).link = some (t.walk n h)[i + 1] := by
  induction n generalizing h i with
  | zero => exact absurd hi (Nat.not_lt_zero _)
  | succ n ih =>
    cases hl : (t.record h).link with
    | none =>
      simp only [walk, hl, List.length_cons, List.length_nil] at hi
      omega
    | some q =>
      simp only [walk, hl, List.length_cons] at hi
      cases i with
      | zero =>
        simp only [walk, hl, List.getElem_cons_zero, List.getElem_cons_succ]
        cases n with
        | zero => exact absurd hi (by simp [walk])
        | succ n => simp [walk]
      | succ i =>
        simp only [walk, hl, List.getElem_cons_succ]
        exact ih (by omega)

namespace Linked

variable {t : PageTable} (ht : t.Linked) {h h' p q : Page}
include ht

/-- The pages of a chain carry its head's owner. -/
theorem chain_owner (hp : p ∈ t.chain h) : (t.record p).owner = (t.record h).owner := by
  have hwalk : ∀ n h, p ∈ t.walk n h → (t.record p).owner = (t.record h).owner := by
    intro n
    induction n with
    | zero => exact fun h hp => absurd hp List.not_mem_nil
    | succ n ih =>
      intro h hp
      cases hl : (t.record h).link with
      | none =>
        simp only [walk, hl, List.mem_cons, List.not_mem_nil, or_false] at hp
        rw [hp]
      | some q =>
        simp only [walk, hl, List.mem_cons] at hp
        rcases hp with rfl | hp
        · rfl
        · exact (ih q hp).trans (ht.linkOk h q hl).1
  exact hwalk _ h hp

theorem head_not_free (hm : (t.record h).headMark = true) : (t.record h).owner ≠ .free := fun ho => by
  rw [ht.freeRecord h ho] at hm
  exact absurd hm nofun

/-- A chain has with each page the ones it is linked to and from. -/
theorem mem_chain_of_link (hm : (t.record h).headMark = true) (hl : (t.record q).link = some p) :
    p ∈ t.chain h ↔ q ∈ t.chain h := by
  constructor
  · intro hp
    obtain rfl | ⟨q', hq', hl'⟩ := mem_walk hp
    · exact absurd (hm.symm.trans (ht.linkOk q p hl).2) nofun
    · exact ht.linkInj q q' p hl hl' ▸ hq'
  · intro hq
    obtain ⟨l, hlast, hend⟩ := ht.ends h hm
    exact walk_closed hlast hend hq hl

/-- The one head mark of a chain is its head's. -/
theorem head_of_mem_chain (hm : (t.record p).headMark = true) (hp : p ∈ t.chain h) : p = h := by
  obtain heq | ⟨q, -, hl⟩ := mem_walk hp
  · exact heq
  · exact absurd (hm.symm.trans (ht.linkOk q p hl).2) nofun

/-- A page is in one chain. -/
theorem head_unique (hm : (t.record h).headMark = true) (hm' : (t.record h').headMark = true)
    (hp : p ∈ t.chain h) (hp' : p ∈ t.chain h') : h' = h := by
  have hback : ∀ n x, p ∈ t.walk n x → x ∈ t.chain h := by
    intro n
    induction n with
    | zero => exact fun x hx => absurd hx List.not_mem_nil
    | succ n ih =>
      intro x hx
      cases hl : (t.record x).link with
      | none =>
        simp only [walk, hl, List.mem_cons, List.not_mem_nil, or_false] at hx
        exact hx ▸ hp
      | some q =>
        simp only [walk, hl, List.mem_cons] at hx
        rcases hx with rfl | hx
        · exact hp
        · exact (ht.mem_chain_of_link hm hl).mp (ih q hx)
  exact ht.head_of_mem_chain hm' (hback _ h' hp')

/-- A chain has each of its pages once. -/
theorem chain_nodup (hm : (t.record h).headMark = true) : (t.chain h).Nodup := by
  have hfirst : ∀ j (hj : j + 1 < (t.chain h).length), (t.chain h)[j + 1] ≠ h := fun j hj heq => by
    have hl := walk_link_getElem (t := t) hj
    have hmark : (t.record (t.chain h)[j + 1]).headMark = false := (ht.linkOk _ _ hl).2
    rw [heq, hm] at hmark
    exact absurd hmark nofun
  have hinj : ∀ i j (hi : i < (t.chain h).length) (hj : j < (t.chain h).length),
      (t.chain h)[i] = (t.chain h)[j] → i = j := by
    intro i
    induction i with
    | zero =>
      intro j hi hj heq
      cases j with
      | zero => rfl
      | succ j => exact absurd heq.symm (hfirst j hj)
    | succ i ih =>
      intro j hi hj heq
      cases j with
      | zero => exact absurd heq (hfirst i hi)
      | succ j =>
        have hli := walk_link_getElem (t := t) hi
        have hlj := walk_link_getElem (t := t) hj
        exact congrArg (· + 1) (ih j (by omega) (by omega)
          (ht.linkInj _ _ _ hli (hlj.trans (congrArg some heq.symm))))
  exact List.pairwise_iff_getElem.mpr fun i j hi hj hlt heq =>
    absurd (hinj i j hi hj heq) (Nat.ne_of_lt hlt)

end Linked
end PageTable

end Sys2Proof.Machine

/-!
PROOFS. The law of pages over a page table, a free list and a list of holdings, and that a change of
holder, a release and a grant keep it.
-/
namespace Sys2Proof.Machine

/-- The law of pages (R18, R19, R22, R23) over the chains that blocks hold, the host's aside. -/
structure PageTable.Accounts (t : PageTable) (free : List Page) (H : List (Page × Owner)) : Prop
    extends t.Linked where
  freeNodup : free.Nodup
  freeIff : ∀ p, p ∈ free ↔ (t.record p).owner = .free
  oneHolder : (H.map Prod.fst).Nodup
  held : ∀ x ∈ H, (t.record x.1).headMark = true ∧ (t.record x.1).owner = x.2
  owned : ∀ h, (t.record h).headMark = true →
    (t.record h).owner = .held ∨ (h, (t.record h).owner) ∈ H
  notHeld : ∀ x ∈ H, x.2 ≠ .held

/-- The holding of a chain by its owner; the host's chains are not listed. -/
def holding (h : Page) (o : Owner) : List (Page × Owner) := if o = .held then [] else [(h, o)]

theorem mem_holding {h : Page} {o : Owner} {x : Page × Owner} :
    x ∈ holding h o ↔ o ≠ .held ∧ x = (h, o) := by
  unfold holding
  split <;> simp [*]

theorem holding_of_ne {o : Owner} (ho : o ≠ .held) (h : Page) : holding h o = [(h, o)] := if_neg ho

theorem nodup_holding {H : List (Page × Owner)} {h : Page} {o : Owner} (hnd : (H.map Prod.fst).Nodup)
    (hne : ∀ x ∈ H, x.1 ≠ h) : ((holding h o ++ H).map Prod.fst).Nodup := by
  by_cases ho : o = .held
  · rw [ho]
    exact hnd
  · rw [holding_of_ne ho, List.singleton_append, List.map_cons, List.nodup_cons]
    refine ⟨fun hmem => ?_, hnd⟩
    obtain ⟨x, hx, heq⟩ := List.mem_map.mp hmem
    exact hne x hx heq

theorem owned_holding (H : List (Page × Owner)) (h : Page) (o : Owner) :
    o = .held ∨ (h, o) ∈ holding h o ++ H := by
  by_cases ho : o = .held
  · exact .inl ho
  · exact .inr (List.mem_append_left _ (mem_holding.mpr ⟨ho, rfl⟩))

namespace PageTable.Accounts

variable {t : PageTable} {free : List Page} {H : List (Page × Owner)} {h : Page} {o o' : Owner}

/-- The order of the holdings is of no matter. -/
theorem perm {H' : List (Page × Owner)} (ha : t.Accounts free H) (hp : H.Perm H') :
    t.Accounts free H' :=
  { ha with
    oneHolder := ((hp.map Prod.fst).nodup_iff).mp ha.oneHolder
    held := fun x hx => ha.held x (hp.mem_iff.mpr hx)
    owned := fun h hm => (ha.owned h hm).imp_right hp.mem_iff.mp
    notHeld := fun x hx => ha.notHeld x (hp.mem_iff.mpr hx) }

/-- The chain in hand. -/
structure Holds (t : PageTable) (free : List Page) (H : List (Page × Owner)) (h : Page) (o : Owner) :
    Prop where
  accounts : t.Accounts free (holding h o ++ H)
  head : (t.record h).headMark = true
  owner : (t.record h).owner = o

theorem takeHolding (ha : t.Accounts free ((h, o) :: H)) : Holds t free H h o := by
  obtain ⟨hm, ho⟩ := ha.held (h, o) List.mem_cons_self
  refine ⟨?_, hm, ho⟩
  rw [holding_of_ne (ha.notHeld _ List.mem_cons_self)]
  exact ha

theorem takeHeld (ha : t.Accounts free H) (hm : (t.record h).headMark = true)
    (ho : (t.record h).owner = .held) : Holds t free H h .held := ⟨ha, hm, ho⟩

namespace Holds

variable (hh : Holds t free H h o)
include hh

/-- No other chain has its head. -/
theorem other {x : Page × Owner} (hx : x ∈ H) : x.1 ≠ h := by
  rintro rfl
  by_cases ho : o = .held
  · have hown := (hh.accounts.held x (List.mem_append_right _ hx)).2
    exact hh.accounts.notHeld x (List.mem_append_right _ hx) (hown ▸ hh.owner.trans ho)
  · have hnd := hh.accounts.oneHolder
    rw [holding_of_ne ho, List.singleton_append, List.map_cons, List.nodup_cons] at hnd
    exact hnd.1 (List.mem_map.mpr ⟨x, hx, rfl⟩)

theorem ne_free : o ≠ .free := hh.owner ▸ hh.accounts.head_not_free hh.head

theorem chain_owner {p : Page} (hp : p ∈ t.chain h) : (t.record p).owner = o :=
  (hh.accounts.chain_owner hp).trans hh.owner

theorem chain_not_free {p : Page} (hp : p ∈ t.chain h) : p ∉ free := fun hf =>
  hh.ne_free ((hh.chain_owner hp).symm.trans ((hh.accounts.freeIff p).mp hf))

/-- Another chain's pages are not in the chain in hand. -/
theorem chain_apart {h' p : Page} (hm : (t.record h').headMark = true) (hne : h' ≠ h)
    (hp : p ∈ t.chain h') : p ∉ t.chain h := fun hp' =>
  hne (hh.accounts.head_unique hh.head hm hp' hp)

theorem head_apart {h' : Page} (hm : (t.record h').headMark = true) (hne : h' ≠ h) :
    h' ∉ t.chain h := hh.chain_apart hm hne (t.head_mem_chain h')

theorem nodup_rest : (H.map Prod.fst).Nodup := by
  have hnd := hh.accounts.oneHolder
  rw [List.map_append] at hnd
  exact (List.nodup_append.mp hnd).2.1

theorem owned_rest {h' : Page} (hm : (t.record h').headMark = true) (hne : h' ≠ h) :
    (t.record h').owner = .held ∨ (h', (t.record h').owner) ∈ H := by
  refine (hh.accounts.owned h' hm).imp_right fun hmem => ?_
  rcases List.mem_append.mp hmem with hmem | hmem
  · exact absurd (congrArg Prod.fst (mem_holding.mp hmem).2) hne
  · exact hmem

/-! #### A change of holder -/

theorem own_owner {p : Page} (hp : p ∈ t.chain h) :
    ((t.own o' (t.chain h)).record p).owner = o' := by
  rw [PageTable.record_own o' _ hh.accounts.wf, if_pos hp]

theorem own_outside {p : Page} (hp : p ∉ t.chain h) :
    (t.own o' (t.chain h)).record p = t.record p := by
  rw [PageTable.record_own o' _ hh.accounts.wf, if_neg hp]

theorem own_link (p : Page) : ((t.own o' (t.chain h)).record p).link = (t.record p).link := by
  rw [PageTable.record_own o' _ hh.accounts.wf]
  split <;> rfl

theorem own_headMark (p : Page) :
    ((t.own o' (t.chain h)).record p).headMark = (t.record p).headMark := by
  rw [PageTable.record_own o' _ hh.accounts.wf]
  split <;> rfl

theorem own_chain (p : Page) : (t.own o' (t.chain h)).chain p = t.chain p :=
  PageTable.walk_own o' _ hh.accounts.wf _ p

theorem own_free (hne : o' ≠ .free) (p : Page) :
    ((t.own o' (t.chain h)).record p).owner = .free ↔ (t.record p).owner = .free := by
  by_cases hp : p ∈ t.chain h
  · rw [hh.own_owner hp, hh.chain_owner hp]
    exact ⟨fun h => absurd h hne, fun h => absurd h hh.ne_free⟩
  · rw [hh.own_outside hp]

theorem own_linked (hne : o' ≠ .free) : (t.own o' (t.chain h)).Linked := by
  have ha := hh.accounts
  refine ⟨PageTable.wf_own _ _ ha.wf, fun p hp => ?_, fun p q hl => ?_, fun p p' q hl hl' => ?_,
    fun p hp => ?_, fun h' hm => ?_⟩
  · have hp' := (hh.own_free hne p).mp hp
    rw [hh.own_outside fun hmem => hh.ne_free ((hh.chain_owner hmem).symm.trans hp')]
    exact ha.freeRecord p hp'
  · rw [hh.own_link] at hl
    rw [hh.own_headMark]
    obtain ⟨ho, hq⟩ := ha.linkOk p q hl
    refine ⟨?_, hq⟩
    by_cases hp : p ∈ t.chain h
    · rw [hh.own_owner hp, hh.own_owner ((ha.mem_chain_of_link hh.head hl).mpr hp)]
    · rw [hh.own_outside hp,
        hh.own_outside fun hmem => hp ((ha.mem_chain_of_link hh.head hl).mp hmem)]
      exact ho
  · rw [hh.own_link] at hl hl'
    exact ha.linkInj p p' q hl hl'
  · obtain ⟨h', hm, hmem⟩ := ha.reached p fun hf => hp ((hh.own_free hne p).mpr hf)
    exact ⟨h', (hh.own_headMark h').trans hm, by rw [hh.own_chain]; exact hmem⟩
  · rw [hh.own_headMark] at hm
    obtain ⟨p, hlast, hend⟩ := ha.ends h' hm
    exact ⟨p, by rw [hh.own_chain]; exact hlast, (hh.own_link p).trans hend⟩

/-- A change of holder (R22). -/
theorem own (hne : o' ≠ .free) : Holds (t.own o' (t.chain h)) free H h o' := by
  have ha := hh.accounts
  have hmemh := t.head_mem_chain h
  refine ⟨⟨hh.own_linked hne, ha.freeNodup, fun p => ?_, nodup_holding hh.nodup_rest fun x => hh.other,
    fun x hx => ?_, fun h' hm => ?_, fun x hx => ?_⟩, (hh.own_headMark h).trans hh.head,
    hh.own_owner hmemh⟩
  · rw [hh.own_free hne]
    exact ha.freeIff p
  · rw [hh.own_headMark]
    rcases List.mem_append.mp hx with hx | hx
    · obtain ⟨-, rfl⟩ := mem_holding.mp hx
      exact ⟨hh.head, hh.own_owner hmemh⟩
    · obtain ⟨hm, ho⟩ := ha.held x (List.mem_append_right _ hx)
      rw [hh.own_outside (hh.head_apart hm (hh.other hx))]
      exact ⟨hm, ho⟩
  · rw [hh.own_headMark] at hm
    by_cases heq : h' = h
    · rw [heq, hh.own_owner hmemh]
      exact owned_holding H h o'
    · rw [hh.own_outside (hh.head_apart hm heq)]
      exact (hh.owned_rest hm heq).imp_right (List.mem_append_right _)
  · rcases List.mem_append.mp hx with hx | hx
    · obtain ⟨hheld, rfl⟩ := mem_holding.mp hx
      exact hheld
    · exact ha.notHeld x (List.mem_append_right _ hx)

/-! #### A release -/

theorem release_record {p : Page} (hp : p ∈ t.chain h) :
    (t.release (t.chain h)).record p = PageRecord.free := by
  rw [PageTable.record_release _ hh.accounts.wf, if_pos hp]

theorem release_outside {p : Page} (hp : p ∉ t.chain h) :
    (t.release (t.chain h)).record p = t.record p := by
  rw [PageTable.record_release _ hh.accounts.wf, if_neg hp]

/-- A head mark afterwards is that of another chain. -/
theorem release_headMark {p : Page} (hm : ((t.release (t.chain h)).record p).headMark = true) :
    p ∉ t.chain h := fun hp => by
  rw [hh.release_record hp] at hm
  exact absurd hm nofun

/-- So is a link. -/
theorem release_link {p q : Page} (hl : ((t.release (t.chain h)).record p).link = some q) :
    p ∉ t.chain h ∧ q ∉ t.chain h ∧ (t.record p).link = some q := by
  have hp : p ∉ t.chain h := fun hp => by
    rw [hh.release_record hp] at hl
    exact absurd hl nofun
  rw [hh.release_outside hp] at hl
  exact ⟨hp, fun hq => hp ((hh.accounts.mem_chain_of_link hh.head hl).mp hq), hl⟩

theorem release_chain {h' : Page} (hm : (t.record h').headMark = true) (hne : h' ≠ h) :
    (t.release (t.chain h)).chain h' = t.chain h' :=
  PageTable.walk_congr _ h' fun p hp => by rw [hh.release_outside (hh.chain_apart hm hne hp)]

theorem release_linked : (t.release (t.chain h)).Linked := by
  have ha := hh.accounts
  refine ⟨PageTable.wf_release _ ha.wf, fun p hp => ?_, fun p q hl => ?_, fun p p' q hl hl' => ?_,
    fun p hp => ?_, fun h' hm => ?_⟩
  · by_cases hmem : p ∈ t.chain h
    · exact hh.release_record hmem
    · rw [hh.release_outside hmem] at hp ⊢
      exact ha.freeRecord p hp
  · obtain ⟨hp, hq, hl⟩ := hh.release_link hl
    rw [hh.release_outside hp, hh.release_outside hq]
    exact ha.linkOk p q hl
  · exact ha.linkInj p p' q (hh.release_link hl).2.2 (hh.release_link hl').2.2
  · have hmem : p ∉ t.chain h := fun hmem => hp (by rw [hh.release_record hmem]; rfl)
    rw [hh.release_outside hmem] at hp
    obtain ⟨h', hm, hin⟩ := ha.reached p hp
    have hne : h' ≠ h := fun heq => hmem (heq ▸ hin)
    refine ⟨h', ?_, by rw [hh.release_chain hm hne]; exact hin⟩
    rw [hh.release_outside (hh.head_apart hm hne)]
    exact hm
  · have hmem := hh.release_headMark hm
    have hne := PageTable.ne_of_not_mem_chain hmem
    rw [hh.release_outside hmem] at hm
    obtain ⟨p, hlast, hend⟩ := ha.ends h' hm
    refine ⟨p, by rw [hh.release_chain hm hne]; exact hlast, ?_⟩
    rw [hh.release_outside (hh.chain_apart hm hne (List.mem_of_getLast? hlast))]
    exact hend

/-- A release of the chain in hand (R26). -/
theorem release : (t.release (t.chain h)).Accounts (free ++ t.chain h) H := by
  have ha := hh.accounts
  refine ⟨hh.release_linked, ?_, fun p => ?_, hh.nodup_rest, fun x hx => ?_, fun h' hm => ?_,
    fun x hx => ha.notHeld x (List.mem_append_right _ hx)⟩
  · refine List.nodup_append.mpr ⟨ha.freeNodup, ha.chain_nodup hh.head, ?_⟩
    rintro p hp q hq rfl
    exact hh.chain_not_free hq hp
  · rw [List.mem_append]
    by_cases hmem : p ∈ t.chain h
    · simp [hh.release_record hmem, hmem, PageRecord.free]
    · simp only [hh.release_outside hmem, hmem, or_false]
      exact ha.freeIff p
  · obtain ⟨hm, ho⟩ := ha.held x (List.mem_append_right _ hx)
    rw [hh.release_outside (hh.head_apart hm (hh.other hx))]
    exact ⟨hm, ho⟩
  · have hmem := hh.release_headMark hm
    rw [hh.release_outside hmem] at hm ⊢
    exact hh.owned_rest hm (PageTable.ne_of_not_mem_chain hmem)

end Holds

/-! ### Grants -/

/-- The pages that a grant takes. -/
structure Takes (t : PageTable) (free : List Page) (H : List (Page × Owner)) (n : Nat) (h : Page)
    (o : Owner) : Prop where
  accounts : t.Accounts free H
  pos : 1 ≤ n
  le : n ≤ Config.maxChain
  room : n ≤ free.length
  first : free.head? = some h
  notFree : o ≠ .free

namespace Takes

variable {n : Nat} (hg : Takes t free H n h o)
include hg

theorem nodup : (free.take n).Nodup := hg.accounts.freeNodup.sublist (List.take_sublist n free)

theorem length : (free.take n).length = n := List.length_take_of_le hg.room

theorem getElem_zero : (free.take n)[0]? = some h := by
  rw [List.getElem?_take, if_pos (show 0 < n from hg.pos), ← List.head?_eq_getElem?, hg.first]

theorem outside {p : Page} (hp : p ∉ free.take n) :
    (PageTable.link o true (free.take n) t).record p = t.record p :=
  (PageTable.record_link o true hg.accounts.wf hg.nodup p).1 hp

theorem record {i : Nat} {p : Page} (hi : (free.take n)[i]? = some p) :
    (PageTable.link o true (free.take n) t).record p = ⟨o, i == 0, (free.take n)[i + 1]?⟩ := by
  rw [(PageTable.record_link o true hg.accounts.wf hg.nodup p).2 i hi, Bool.true_and]

theorem owner {p : Page} (hp : p ∈ free.take n) :
    ((PageTable.link o true (free.take n) t).record p).owner = o := by
  obtain ⟨i, hi⟩ := List.mem_iff_getElem?.mp hp
  rw [hg.record hi]

/-- The one head mark of what is taken is the first page's. -/
theorem eq_head {p : Page} (hp : p ∈ free.take n)
    (hm : ((PageTable.link o true (free.take n) t).record p).headMark = true) : p = h := by
  obtain ⟨i, hi⟩ := List.mem_iff_getElem?.mp hp
  rw [hg.record hi] at hm
  obtain rfl : i = 0 := by simpa using hm
  exact Option.some.inj (hi.symm.trans hg.getElem_zero)

theorem link {p q : Page} (hp : p ∈ free.take n)
    (hl : ((PageTable.link o true (free.take n) t).record p).link = some q) :
    ∃ i, (free.take n)[i]? = some p ∧ (free.take n)[i + 1]? = some q := by
  obtain ⟨i, hi⟩ := List.mem_iff_getElem?.mp hp
  rw [hg.record hi] at hl
  exact ⟨i, hi, hl⟩

theorem chain_head : (PageTable.link o true (free.take n) t).chain h = free.take n := by
  rw [PageTable.chain, PageTable.walk_link o true hg.accounts.wf hg.nodup _ 0 h hg.getElem_zero,
    List.drop_zero, List.take_take, Nat.min_eq_right hg.le]

/-- The pages taken were FREE. -/
theorem was_free {p : Page} (hp : p ∈ free.take n) : t.record p = PageRecord.free :=
  hg.accounts.freeRecord p ((hg.accounts.freeIff p).mp (List.mem_of_mem_take hp))

theorem chain_apart {h' p : Page} (hm : (t.record h').headMark = true) (hp : p ∈ t.chain h') :
    p ∉ free.take n := fun hmem => by
  have hown := hg.accounts.chain_owner hp
  rw [hg.was_free hmem] at hown
  exact hg.accounts.head_not_free hm hown.symm

theorem head_apart {h' : Page} (hm : (t.record h').headMark = true) : h' ∉ free.take n :=
  hg.chain_apart hm (t.head_mem_chain h')

theorem chain_outside {h' : Page} (hm : (t.record h').headMark = true) :
    (PageTable.link o true (free.take n) t).chain h' = t.chain h' :=
  PageTable.walk_congr _ h' fun p hp => by rw [hg.outside (hg.chain_apart hm hp)]

theorem link_outside {p q : Page} (hl : (t.record p).link = some q) : q ∉ free.take n := fun hq => by
  have hown := (hg.accounts.linkOk p q hl).1
  rw [hg.was_free hq] at hown
  rw [hg.accounts.freeRecord p hown.symm] at hl
  exact absurd hl nofun

theorem linked : (PageTable.link o true (free.take n) t).Linked := by
  have ha := hg.accounts
  refine ⟨PageTable.wf_link o true _ ha.wf, fun p hp => ?_, fun p q hl => ?_,
    fun p p' q hl hl' => ?_, fun p hp => ?_, fun h' hm => ?_⟩
  · by_cases hmem : p ∈ free.take n
    · exact absurd ((hg.owner hmem).symm.trans hp) hg.notFree
    · rw [hg.outside hmem] at hp ⊢
      exact ha.freeRecord p hp
  · by_cases hmem : p ∈ free.take n
    · obtain ⟨i, hi, hq⟩ := hg.link hmem hl
      rw [hg.owner hmem, hg.record hq]
      exact ⟨rfl, rfl⟩
    · rw [hg.outside hmem] at hl ⊢
      rw [hg.outside (hg.link_outside hl)]
      exact ha.linkOk p q hl
  · by_cases hmem : p ∈ free.take n <;> by_cases hmem' : p' ∈ free.take n
    · obtain ⟨i, hi, hq⟩ := hg.link hmem hl
      obtain ⟨j, hj, hq'⟩ := hg.link hmem' hl'
      have hij := (List.getElem?_inj (List.getElem?_eq_some_iff.mp hq).1 hg.nodup).mp
        (hq.trans hq'.symm)
      obtain rfl : i = j := Nat.succ.inj hij
      exact Option.some.inj (hi.symm.trans hj)
    · obtain ⟨i, hi, hq⟩ := hg.link hmem hl
      rw [hg.outside hmem'] at hl'
      exact absurd (List.mem_of_getElem? hq) (hg.link_outside hl')
    · obtain ⟨i, hi, hq⟩ := hg.link hmem' hl'
      rw [hg.outside hmem] at hl
      exact absurd (List.mem_of_getElem? hq) (hg.link_outside hl)
    · rw [hg.outside hmem] at hl
      rw [hg.outside hmem'] at hl'
      exact ha.linkInj p p' q hl hl'
  · by_cases hmem : p ∈ free.take n
    · exact ⟨h, by rw [hg.record hg.getElem_zero]; rfl, by rw [hg.chain_head]; exact hmem⟩
    · rw [hg.outside hmem] at hp
      obtain ⟨h', hm, hp'⟩ := ha.reached p hp
      refine ⟨h', ?_, by rw [hg.chain_outside hm]; exact hp'⟩
      rw [hg.outside (hg.head_apart hm)]
      exact hm
  · by_cases hmem : h' ∈ free.take n
    · obtain rfl := hg.eq_head hmem hm
      have hlt : n - 1 < (free.take n).length := by
        rw [hg.length]
        exact Nat.sub_lt hg.pos Nat.one_pos
      obtain ⟨l, hlast⟩ : ∃ l, (free.take n)[n - 1]? = some l := ⟨_, List.getElem?_eq_getElem hlt⟩
      refine ⟨l, by rw [hg.chain_head, List.getLast?_eq_getElem?, hg.length, hlast], ?_⟩
      rw [hg.record hlast, Nat.sub_add_cancel hg.pos]
      exact List.getElem?_eq_none (Nat.le_of_eq hg.length)
    · rw [hg.outside hmem] at hm
      obtain ⟨p, hlast, hend⟩ := ha.ends h' hm
      refine ⟨p, by rw [hg.chain_outside hm]; exact hlast, ?_⟩
      rw [hg.outside (hg.chain_apart hm (List.mem_of_getLast? hlast))]
      exact hend

/-- A grant of up to four pages from the head of the free list (R25). -/
theorem grant : Holds (PageTable.link o true (free.take n) t) (free.drop n) H h o := by
  have ha := hg.accounts
  have hmemh := List.mem_of_getElem? hg.getElem_zero
  have hhead : ((PageTable.link o true (free.take n) t).record h).headMark = true := by
    rw [hg.record hg.getElem_zero]
    rfl
  refine ⟨⟨hg.linked, ha.freeNodup.sublist (List.drop_sublist n free), fun p => ?_,
    nodup_holding ha.oneHolder fun x hx heq => ?_, fun x hx => ?_, fun h' hm => ?_, fun x hx => ?_⟩,
    hhead, hg.owner hmemh⟩
  · have hnd := ha.freeNodup
    rw [← List.take_append_drop n free] at hnd
    by_cases hmem : p ∈ free.take n
    · rw [hg.owner hmem]
      obtain ⟨-, -, hapart⟩ := List.nodup_append.mp hnd
      exact ⟨fun hd => absurd rfl (hapart p hmem p hd), fun hf => absurd hf hg.notFree⟩
    · rw [hg.outside hmem, ← ha.freeIff p]
      have hparts : p ∈ free ↔ p ∈ free.take n ∨ p ∈ free.drop n := by
        rw [← List.mem_append, List.take_append_drop]
      exact ⟨fun hd => hparts.mpr (.inr hd), fun hp => (hparts.mp hp).resolve_left hmem⟩
  · exact hg.head_apart (ha.held x hx).1 (heq ▸ hmemh)
  · rcases List.mem_append.mp hx with hx | hx
    · obtain ⟨-, rfl⟩ := mem_holding.mp hx
      exact ⟨hhead, hg.owner hmemh⟩
    · rw [hg.outside (hg.head_apart (ha.held x hx).1)]
      exact ha.held x hx
  · by_cases hmem : h' ∈ free.take n
    · obtain rfl := hg.eq_head hmem hm
      rw [hg.owner hmem]
      exact owned_holding H h' o
    · rw [hg.outside hmem] at hm ⊢
      exact (ha.owned h' hm).imp_right (List.mem_append_right _)
  · rcases List.mem_append.mp hx with hx | hx
    · obtain ⟨hheld, rfl⟩ := mem_holding.mp hx
      exact hheld
    · exact ha.notHeld x hx

end Takes

end PageTable.Accounts

end Sys2Proof.Machine

/-!
PROOFS. The law of pages and of the data port over the part: what its blocks hold, channel by channel, and
the operations that move chains.
-/
namespace Sys2Proof.Machine

/-! ### The data port -/

/-- The law of the data port over a page table (R34, R36, R40). -/
def PageTable.PortOk (t : PageTable) (port : DataPort) : Prop :=
  (port.mode ≠ .detached →
    (t.record port.page).headMark = true ∧ (t.record port.page).owner = .held ∧
    port.offset.toNat < 64 * (t.chain port.page).length) ∧
  (port.mode = .ended → port.offset.toNat + 1 = 64 * (t.chain port.page).length) ∧
  (port.mode = .detached → port.page = 0x00 ∧ port.offset = 0x00)

theorem State.portLaw_iff (s : State) : s.PortLaw ↔ s.pageTable.PortOk s.port := Iff.rfl

/-- A port looks at the chain it is attached to alone. -/
theorem PageTable.PortOk.congr {t u : PageTable} {port : DataPort} (h : t.PortOk port)
    (hu : port.mode ≠ .detached →
      u.record port.page = t.record port.page ∧ u.chain port.page = t.chain port.page) :
    u.PortOk port := by
  obtain ⟨hatt, hend, hdet⟩ := h
  refine ⟨fun hm => ?_, fun hm => ?_, hdet⟩
  · obtain ⟨hrec, hchain⟩ := hu hm
    rw [hrec, hchain]
    exact hatt hm
  · obtain ⟨-, hchain⟩ := hu (by simp [hm])
    rw [hchain]
    exact hend hm

theorem PageTable.PortOk.detached (t : PageTable) : t.PortOk ⟨.detached, 0x00, 0x00⟩ :=
  ⟨fun hm => absurd rfl hm, nofun, fun _ => ⟨rfl, rfl⟩⟩

namespace PageTable.Accounts

variable {t : PageTable} {free : List Page} {H : List (Page × Owner)} {h : Page} {o o' : Owner}
  {port : DataPort}

/-- The port is not attached to the chain in hand. -/
def Holds.Apart (h : Page) (port : DataPort) : Prop := port.mode = .detached ∨ port.page ≠ h

theorem Holds.apart_of_not_held (hh : Holds t free H h o) (ho : o ≠ .held) (hp : t.PortOk port) :
    Holds.Apart h port := by
  by_cases hm : port.mode = .detached
  · exact .inl hm
  · refine .inr fun heq => ho ?_
    rw [← hh.owner, ← heq]
    exact (hp.1 hm).2.1

theorem Holds.own_port (hh : Holds t free H h o) (hp : t.PortOk port) (hap : Holds.Apart h port) :
    (t.own o' (t.chain h)).PortOk port :=
  hp.congr fun hm =>
    ⟨hh.own_outside (hh.head_apart (hp.1 hm).1 (hap.resolve_left hm)), hh.own_chain _⟩

theorem Holds.release_port (hh : Holds t free H h o) (hp : t.PortOk port) (hap : Holds.Apart h port) :
    (t.release (t.chain h)).PortOk port :=
  hp.congr fun hm =>
    ⟨hh.release_outside (hh.head_apart (hp.1 hm).1 (hap.resolve_left hm)),
      hh.release_chain (hp.1 hm).1 (hap.resolve_left hm)⟩

theorem Takes.grant_port {n : Nat} (hg : Takes t free H n h o) (hp : t.PortOk port) :
    (PageTable.link o true (free.take n) t).PortOk port :=
  hp.congr fun hm => ⟨hg.outside (hg.head_apart (hp.1 hm).1), hg.chain_outside (hp.1 hm).1⟩

end PageTable.Accounts

/-! ### What the blocks hold -/

/-- What the received frame queue and the channels but one hold. -/
def State.otherHoldings (s : State) (c : Chan) : List (Page × Owner) :=
  s.rfq.map (fun e => (e.head, .queuedRx)) ++
    ([0, 1, 2, 3].filter (· ≠ c)).flatMap fun d => (s.chan d).holdings d

theorem State.holdings_perm (s : State) (c : Chan) :
    s.holdings.Perm ((s.chan c).holdings c ++ s.otherHoldings c) := by
  refine List.perm_iff_count.mpr fun x => ?_
  match c with
  | 0 => simp [State.holdings, State.otherHoldings, List.count_append]; omega
  | 1 => simp [State.holdings, State.otherHoldings, List.count_append]; omega
  | 2 => simp [State.holdings, State.otherHoldings, List.count_append]; omega
  | 3 => simp [State.holdings, State.otherHoldings, List.count_append]; omega

theorem State.otherHoldings_congr {s t : State} {c : Chan} (hr : t.rfq = s.rfq)
    (hc : ∀ d, d ≠ c → (t.chan d).holdings d = (s.chan d).holdings d) :
    t.otherHoldings c = s.otherHoldings c := by
  unfold State.otherHoldings
  rw [hr]
  refine congrArg _ (congrArg List.flatten (List.map_congr_left fun d hd => hc d ?_))
  simpa using (List.mem_filter.mp hd).2

theorem State.holdings_congr {s t : State} (hr : t.rfq = s.rfq)
    (hc : ∀ d, (t.chan d).holdings d = (s.chan d).holdings d) : t.holdings = s.holdings := by
  unfold State.holdings
  rw [hr]
  exact congrArg _ (congrArg List.flatten (List.map_congr_left fun d _ => hc d))

/-- The filling chain of a room mark (R22, R56). -/
def Room.holdings (c : Chan) : Room → List (Page × Owner)
  | .storing h => [(h, .filling c)]
  | .none | .noRoom => []

/-- The chain of an entry (R22). -/
def TxEntry.holding (c : Chan) (e : TxEntry) : Page × Owner :=
  (e.head, if e.active then .activeTx c else .queuedTx c)

theorem Channel.holdings_eq (c : Chan) (ch : Channel) :
    ch.holdings c = ch.txq.map (TxEntry.holding c) ++ ch.engine.room.holdings c := by
  unfold Channel.holdings Room.holdings
  cases ch.engine.room <;> rfl

theorem Channel.holdings_congr {c : Chan} {a b : Channel} (hq : b.txq = a.txq)
    (hr : b.engine.room = a.engine.room) : b.holdings c = a.holdings c := by
  rw [Channel.holdings_eq, Channel.holdings_eq, hq, hr]

theorem TxEntry.holding_ne_held (c : Chan) (e : TxEntry) : (e.holding c).2 ≠ .held := by
  unfold TxEntry.holding
  split <;> nofun

theorem State.holdings_ne_held (s : State) : ∀ x ∈ s.holdings, x.2 ≠ .held := by
  intro x hx
  rcases List.mem_append.mp hx with hx | hx
  · obtain ⟨e, -, rfl⟩ := List.mem_map.mp hx
    exact nofun
  · obtain ⟨d, -, hx⟩ := List.mem_flatMap.mp hx
    rw [Channel.holdings_eq] at hx
    rcases List.mem_append.mp hx with hx | hx
    · obtain ⟨e, -, rfl⟩ := List.mem_map.mp hx
      exact e.holding_ne_held d
    · revert hx
      cases (s.chan d).engine.room with
      | none => exact fun hx => absurd hx List.not_mem_nil
      | noRoom => exact fun hx => absurd hx List.not_mem_nil
      | storing h =>
        intro hx
        rw [List.mem_singleton.mp hx]
        exact nofun

/-! ### The part's pages accounted for -/

/-- The part's pages are accounted for by a list of holdings, and its port keeps its law where it did
before. -/
structure State.Accounted (b : Prop) (s : State) (H : List (Page × Owner)) : Prop where
  pages : s.pageTable.Accounts s.freeList H
  port : b → s.pageTable.PortOk s.port

/-- So they are, with a chain in hand. -/
structure State.InHand (b : Prop) (s : State) (H : List (Page × Owner)) (h : Page) (o : Owner) : Prop where
  pages : PageTable.Accounts.Holds s.pageTable s.freeList H h o
  port : b → s.pageTable.PortOk s.port

/-- They are accounted for by what the part's blocks hold. -/
abbrev State.Sound (b : Prop) (s : State) : Prop := s.Accounted b s.holdings

theorem State.sound_iff (b : Prop) (s : State) :
    s.Sound b ↔ s.pageTable.wf ∧ s.PagesLaw ∧ (b → s.PortLaw) := by
  constructor
  · rintro
      ⟨⟨⟨hwf, hrec, hlink, hinj, hreached, hends⟩, hnd, hiff, hone, hheld, howned, -⟩, hport⟩
    exact ⟨hwf, ⟨hnd, hiff, hrec, hlink, hinj, hreached, hends, hone, hheld, howned⟩, hport⟩
  · rintro ⟨hwf, ⟨hnd, hiff, hrec, hlink, hinj, hreached, hends, hone, hheld, howned⟩, hport⟩
    exact ⟨⟨⟨hwf, hrec, hlink, hinj, hreached, hends⟩, hnd, hiff, hone, hheld, howned,
      s.holdings_ne_held⟩, hport⟩

namespace State.Accounted

variable {b : Prop} {s t : State} {H : List (Page × Owner)} {h : Page} {o o' : Owner}

theorem congr (ha : s.Accounted b H) (ht : t.pageTable = s.pageTable) (hf : t.freeList = s.freeList)
    (hp : t.port = s.port) : t.Accounted b H :=
  ⟨by rw [ht, hf]; exact ha.pages, by rw [ht, hp]; exact ha.port⟩

theorem perm {H' : List (Page × Owner)} (ha : s.Accounted b H) (hp : H.Perm H') : s.Accounted b H' :=
  ⟨ha.pages.perm hp, ha.port⟩

/-- The holdings in hand are those of the blocks. -/
theorem sound (ha : s.Accounted b H) (ht : t.pageTable = s.pageTable) (hf : t.freeList = s.freeList)
    (hp : t.port = s.port) (hh : t.holdings.Perm H) : t.Sound b := (ha.congr ht hf hp).perm hh.symm

theorem takeHolding (ha : s.Accounted b ((h, o) :: H)) : s.InHand b H h o :=
  ⟨ha.pages.takeHolding, ha.port⟩

theorem takeHeld (ha : s.Accounted b H) (hm : (s.pageTable.record h).headMark = true)
    (ho : (s.pageTable.record h).owner = .held) : s.InHand b H h .held :=
  ⟨ha.pages.takeHeld hm ho, ha.port⟩

theorem grant (ha : s.Accounted b H) {n : Nat} (h1 : 1 ≤ n) (h4 : n ≤ Config.maxChain)
    (hn : n ≤ s.freeCount) (hh : s.freeList.head? = some h) (ho : o ≠ .free) :
    (s.grant o n).InHand b H h o := by
  have hg : PageTable.Accounts.Takes s.pageTable s.freeList H n h o := ⟨ha.pages, h1, h4, hn, hh, ho⟩
  refine ⟨?_, fun hb => ?_⟩
  · rw [State.grant_pageTable, State.grant_freeList]
    exact hg.grant
  · rw [State.grant_pageTable, show (s.grant o n).port = s.port by simp]
    exact hg.grant_port (ha.port hb)

end State.Accounted

namespace State.InHand

variable {b : Prop} {s : State} {H : List (Page × Owner)} {h : Page} {o o' : Owner}

theorem put (hh : s.InHand b H h o) : s.Accounted b (holding h o ++ H) := ⟨hh.pages.accounts, hh.port⟩

theorem putHeld (hh : s.InHand b H h .held) : s.Accounted b H := hh.put

theorem putHolding (hh : s.InHand b H h o) (ho : o ≠ .held) : s.Accounted b ((h, o) :: H) := by
  have ha := hh.put
  rw [holding_of_ne ho] at ha
  exact ha

/-- A block gives its chain back (R26). -/
theorem release (hh : s.InHand b H h o) (ho : o ≠ .held) : (s.release h).Accounted b H := by
  refine ⟨?_, fun hb => ?_⟩
  · rw [State.release_pageTable, State.release_freeList]
    exact hh.pages.release
  · rw [State.release_pageTable, show (s.release h).port = s.port by simp]
    exact hh.pages.release_port (hh.port hb) (hh.pages.apart_of_not_held ho (hh.port hb))

/-- A block hands its chain over (R22). -/
theorem setOwner (hh : s.InHand b H h o) (ho : o ≠ .held) (hne : o' ≠ .free) :
    (s.setOwner h o').InHand b H h o' :=
  ⟨hh.pages.own hne, fun hb =>
    hh.pages.own_port (hh.port hb) (hh.pages.apart_of_not_held ho (hh.port hb))⟩

end State.InHand

/-! ### Changes that move no chain -/

/-- The part with its chains, their holders and its port as they were. -/
structure State.SamePages (s t : State) : Prop where
  pageTable : t.pageTable = s.pageTable
  freeList : t.freeList = s.freeList
  port : t.port = s.port
  rfq : t.rfq = s.rfq
  txq : ∀ c, (t.chan c).txq = (s.chan c).txq
  room : ∀ c, (t.chan c).engine.room.holdings c = (s.chan c).engine.room.holdings c

namespace State.SamePages

variable {s t : State}

theorem chans (h : s.SamePages t) (c : Chan) : (t.chan c).holdings c = (s.chan c).holdings c := by
  rw [Channel.holdings_eq, Channel.holdings_eq, h.txq, h.room]

theorem sound {b : Prop} (h : s.SamePages t) (hs : s.Sound b) : t.Sound b := by
  refine hs.sound h.pageTable h.freeList h.port ?_
  rw [State.holdings_congr h.rfq h.chans]

theorem refl (s : State) : s.SamePages s := ⟨rfl, rfl, rfl, rfl, fun _ => rfl, fun _ => rfl⟩

theorem trans {u : State} (h : s.SamePages t) (g : t.SamePages u) : s.SamePages u :=
  ⟨g.pageTable.trans h.pageTable, g.freeList.trans h.freeList, g.port.trans h.port, g.rfq.trans h.rfq,
    fun c => (g.txq c).trans (h.txq c), fun c => (g.room c).trans (h.room c)⟩

/-- A change of one channel that leaves its queue and the chain its engine fills. -/
theorem chan (h : s.SamePages t) (c : Chan) {f : Channel → Channel}
    (hq : (f (t.chan c)).txq = (t.chan c).txq)
    (hr : (f (t.chan c)).engine.room.holdings c = (t.chan c).engine.room.holdings c) :
    s.SamePages (t.updChan c f) := by
  refine h.trans ⟨rfl, rfl, rfl, rfl, fun d => ?_, fun d => ?_⟩ <;> rw [State.chan_updChan] <;> split
  · next hd => rw [hd, hq]
  · rfl
  · next hd => rw [hd, hr]
  · rfl

/-- A change of nothing but what no channel, chain, queue of frames or port is of. -/
theorem of_chans {u : State} (h : s.SamePages t) (ht : u.pageTable = t.pageTable)
    (hf : u.freeList = t.freeList) (hp : u.port = t.port) (hr : u.rfq = t.rfq)
    (hc : u.chans = t.chans) : s.SamePages u :=
  h.trans ⟨ht, hf, hp, hr, fun c => by rw [State.chan_def, hc, State.chan_def],
    fun c => by rw [State.chan_def, hc, State.chan_def]⟩

theorem raise (h : s.SamePages t) (e : Event) : s.SamePages (t.raise e) := h.of_chans rfl rfl rfl rfl rfl

theorem raiseIf (h : s.SamePages t) (b : Bool) (e : Event) : s.SamePages (t.raiseIf b e) := by
  rw [State.raiseIf_eq]
  exact h.of_chans rfl rfl rfl rfl rfl

theorem done (h : s.SamePages t) (k : StatusCode) : s.SamePages (t.done k) :=
  h.of_chans rfl rfl rfl rfl rfl

theorem setRes (h : s.SamePages t) (i : Fin 8) (v : Byte) : s.SamePages (t.setRes i v) :=
  h.of_chans rfl rfl rfl rfl rfl

theorem count (h : s.SamePages t) (c : Chan) (k : Counter) : s.SamePages (t.count c k) :=
  (h.chan c rfl rfl).raiseIf _ _

theorem setLine (h : s.SamePages t) (c : Chan) (l : LineTx) : s.SamePages (t.setLine c l) :=
  h.chan c rfl rfl

theorem updEngine (h : s.SamePages t) (c : Chan) {f : Engine → Engine}
    (hr : (f (t.chan c).engine).room.holdings c = (t.chan c).engine.room.holdings c) :
    s.SamePages (t.updEngine c f) := h.chan c rfl hr

theorem updSeq (h : s.SamePages t) (c : Chan) (f : Sequencer → Sequencer) :
    s.SamePages (t.updSeq c f) := h.chan c rfl rfl

theorem loadRes (h : s.SamePages t) (i : Nat) (l : List Byte) : s.SamePages (t.loadRes i l) :=
  h.of_chans (by simp) (by simp) (by simp) (by simp) (by simp)

theorem settle (h : s.SamePages t) : s.SamePages t.settle := by
  refine h.trans ⟨by simp, by simp, by simp, by simp, fun c => ?_, fun c => ?_⟩ <;>
    rw [State.settle_chan, Channel.settle] <;> split <;> rfl

theorem storeChain (h : s.SamePages t) (p : Page) (off : Nat) (v : Byte) :
    s.SamePages (t.storeChain p off v) :=
  h.of_chans (by simp) (by simp) (by simp) (by simp) (by simp)

theorem storeBytes (h : s.SamePages t) (p : Page) (off : Nat) (l : List Byte) :
    s.SamePages (t.storeBytes p off l) :=
  h.of_chans (by simp) (by simp) (by simp) (by simp) (by simp)

theorem recordSeq (h : s.SamePages t) (c : Chan) (src : Byte) (q : BitVec 3) :
    s.SamePages (t.recordSeq c src q) := h.of_chans rfl rfl rfl rfl rfl

theorem placeResponse (h : s.SamePages t) (c : Chan) (nak : Bool) (e : Engine) :
    s.SamePages (t.placeResponse c nak e) := by
  unfold State.placeResponse
  dsimp only
  split
  · exact (h.count c _).chan c rfl rfl
  · exact h.chan c rfl rfl

theorem respondIf (h : s.SamePages t) (c : Chan) (b nak : Bool) (e : Engine) :
    s.SamePages (t.respondIf c b nak e) := by
  unfold State.respondIf
  split
  · exact h.placeResponse c nak e
  · exact h

theorem dropResponse (h : s.SamePages t) (c : Chan) : s.SamePages (t.dropResponse c) := by
  unfold State.dropResponse
  split
  · exact (h.count c _).chan c rfl rfl
  · exact h

theorem dropFlow (h : s.SamePages t) (c : Chan) : s.SamePages (t.dropFlow c) :=
  (h.count c _).chan c rfl rfl

theorem startBit (h : s.SamePages t) (c : Chan) : s.SamePages (t.startBit c) :=
  State.SamePages.dropResponse (h.chan c rfl rfl) c

theorem idleAtLeast (h : s.SamePages t) (c : Chan) (n : Nat) :
    s.SamePages (t.updChan c (Channel.idleAtLeast n)) := h.chan c rfl rfl

theorem holdDelivered (h : s.SamePages t) (c : Chan) (d : Byte) :
    s.SamePages (t.holdDelivered c d) := by
  unfold State.holdDelivered
  split
  · exact h.chan c rfl rfl
  · exact (h.chan c rfl rfl).raise _

theorem flowClean (h : s.SamePages t) (c : Chan) : s.SamePages (t.flowClean c) := by
  unfold State.flowClean
  split
  · exact h
  · next f _ =>
    refine (h.chan c ?_ ?_).raise _ <;> rw [Channel.flowCleanIn_eq]

theorem flowCollision (h : s.SamePages t) (c : Chan) : s.SamePages (t.flowCollision c) := by
  unfold State.flowCollision
  split
  · exact h
  · split
    · exact h.chan c rfl rfl
    · exact h.chan c rfl rfl
    · split
      · exact h.chan c rfl rfl
      · exact h.dropFlow c

end State.SamePages

end Sys2Proof.Machine

/-!
PROOFS. The chains that a channel's blocks come to hold, hand over and give back, and that the pages stay
accounted for: completions, receive requests, and the ends of frames.
-/
namespace Sys2Proof.Machine

variable {b : Prop} {s t : State} {c : Chan}

/-! ### What the channels but one hold -/

theorem State.holdings_updChan (t : State) (c : Chan) (f : Channel → Channel) :
    (t.updChan c f).holdings.Perm ((f (t.chan c)).holdings c ++ t.otherHoldings c) := by
  have hp := (t.updChan c f).holdings_perm c
  have hother : (t.updChan c f).otherHoldings c = t.otherHoldings c :=
    State.otherHoldings_congr rfl fun d hd => by rw [State.chan_updChan_ne t f hd]
  rw [State.chan_updChan_same, hother] at hp
  exact hp

theorem State.SamePages.otherHoldings (h : s.SamePages t) (c : Chan) :
    t.otherHoldings c = s.otherHoldings c :=
  State.otherHoldings_congr h.rfq fun d _ => h.chans d

theorem State.release_otherHoldings (s : State) (h : Page) (c : Chan) :
    (s.release h).otherHoldings c = s.otherHoldings c :=
  State.otherHoldings_congr (by simp) fun d _ => Channel.holdings_congr (by simp) (by simp)

theorem State.release_holdings (s : State) (h : Page) : (s.release h).holdings = s.holdings :=
  State.holdings_congr (by simp) fun d => Channel.holdings_congr (by simp) (by simp)

theorem State.grant_holdings (s : State) (o : Owner) (n : Nat) : (s.grant o n).holdings = s.holdings :=
  State.holdings_congr (by simp) fun d => Channel.holdings_congr (by simp) (by simp)

theorem State.appendFrame_pageTable (s : State) (c : Chan) (h : Page) :
    (s.appendFrame c h).pageTable = (s.setOwner h .queuedRx).pageTable := by
  simp [State.appendFrame, State.setOwner, State.chainPages]

theorem State.appendFrame_otherHoldings (s : State) (c : Chan) (h : Page) :
    ((s.appendFrame c h).otherHoldings c).Perm ((h, .queuedRx) :: s.otherHoldings c) := by
  have hrfq : (s.appendFrame c h).rfq = s.rfq ++ [s.entryOf c h] := by
    simp [State.appendFrame, State.setOwner]
  unfold State.otherHoldings
  rw [hrfq, List.map_append, List.append_assoc]
  simp only [State.appendFrame_chan]
  exact List.perm_middle

namespace State.Sound

/-- The chains of one channel, and the others. -/
theorem split (h : s.Sound b) (c : Chan) :
    s.Accounted b ((s.chan c).txq.map (TxEntry.holding c) ++
      ((s.chan c).engine.room.holdings c ++ s.otherHoldings c)) := by
  have ha := h.perm (s.holdings_perm c)
  rw [Channel.holdings_eq, List.append_assoc] at ha
  exact ha

theorem same (h : s.Sound b) (hs : s.SamePages t) : t.Sound b := hs.sound h

/-! ### Completions -/

/-- The head entry leaves its queue and its chain is released (R143, R170). -/
theorem headGone (h : s.Sound b) {e : TxEntry} {es : List TxEntry} (hq : (s.chan c).txq = e :: es)
    (hs : (s.release e.head).SamePages t) {f : Channel → Channel}
    (hfq : (f (t.chan c)).txq = (t.chan c).txq.tail)
    (hfr : (f (t.chan c)).engine.room.holdings c = (t.chan c).engine.room.holdings c) :
    (t.updChan c f).Sound b := by
  have ha := h.split c
  rw [hq, List.map_cons, List.cons_append] at ha
  have hgone := ha.takeHolding.release (e.holding_ne_held c)
  refine hgone.sound hs.pageTable hs.freeList hs.port ((t.holdings_updChan c f).trans (.of_eq ?_))
  have htail : (t.chan c).txq.tail = es := by rw [hs.txq]; simp [hq]
  rw [Channel.holdings_eq, hfq, htail, hfr, hs.room, hs.otherHoldings, State.release_otherHoldings,
    List.append_assoc]
  simp

theorem finishEntry (h : s.Sound b) (c : Chan) (o : TxOutcome) : (s.finishEntry c o).Sound b := by
  cases hq : (s.chan c).txq with
  | nil => simpa [State.finishEntry, hq] using h
  | cons e es =>
    rw [State.finishEntry_of_cons hq]
    have hrec := h.same (t := { s with
      tcq := s.tcq ++ [⟨c, e.tag, e.seq, o, (s.chan c).sequencer.attempts⟩] })
      ((State.SamePages.refl s).of_chans rfl rfl rfl rfl rfl)
    split
    · exact hrec.headGone hq ((State.SamePages.refl _).count c _) rfl rfl
    · exact hrec.headGone hq (State.SamePages.refl _) rfl rfl

theorem completeAborted (h : s.Sound b) (c : Chan) : (s.completeAborted c).Sound b := by
  unfold State.completeAborted
  split
  · exact h
  · next e es hq =>
    dsimp only
    split
    · have hrec := h.same (t := { s with
        tcq := s.tcq ++ [recordOf c e .aborted (s.chan c).sequencer.attempts] })
        ((State.SamePages.refl s).of_chans rfl rfl rfl rfl rfl)
      exact hrec.headGone hq (State.SamePages.refl _) rfl rfl
    · have hlost := h.same ((State.SamePages.refl s).raise .tcqLost)
      exact hlost.headGone hq (State.SamePages.refl _) rfl rfl

theorem claim (h : s.Sound b) (c : Chan) (o : TxOutcome) : (s.claim c o).Sound b := by
  unfold State.claim
  split
  · exact h.finishEntry c o
  · exact h.same (((State.SamePages.refl s).updSeq c _).raise _)

theorem deliver (h : s.Sound b) (c : Chan) (nak : Bool) (src : Byte) (q : BitVec 3) :
    (s.deliver c nak src q).Sound b := by
  have hstray := h.same ((State.SamePages.refl s).count c .strayResponses)
  unfold State.deliver
  dsimp only
  split
  · split
    · exact h.claim c _
    · have hnak := (State.SamePages.refl s).count c .txNaks
      split
      · exact h.same (hnak.updSeq c _)
      · exact (h.same hnak).claim c _
    · split
      · exact h.claim c _
      · exact hstray
    · exact hstray
  · exact hstray

theorem attemptClean (h : s.Sound b) (c : Chan) : (s.attemptClean c).Sound b := by
  unfold State.attemptClean
  split
  · exact h
  · split
    · exact h.same ((State.SamePages.refl s).updSeq c _)
    · exact h.claim c _

theorem attemptCollision (h : s.Sound b) (c : Chan) : (s.attemptCollision c).Sound b := by
  have hcount := (State.SamePages.refl s).count c .txCollisions
  unfold State.attemptCollision
  split
  · exact h
  · dsimp only
    split
    · exact h.same (hcount.updSeq c _)
    · exact (h.same hcount).claim c _

theorem ackTimeout (h : s.Sound b) (c : Chan) : (s.ackTimeout c).Sound b := by
  have hcount := (State.SamePages.refl s).count c .txAckTimeouts
  unfold State.ackTimeout
  dsimp only
  split
  · exact h.same (hcount.updSeq c _)
  · exact (h.same hcount).claim c _

theorem servePlace (h : s.Sound b) : s.servePlace.Sound b := by
  unfold State.servePlace
  split
  · exact h
  · split
    · exact h
    · next c _ _ o _ =>
      have hplace := h.same (t := { s with lastTcq := c })
        ((State.SamePages.refl s).of_chans rfl rfl rfl rfl rfl)
      exact hplace.finishEntry c o

/-! ### Receive requests -/

theorem serveRequest (h : s.Sound b) {n : Nat} (hroom : (s.chan c).engine.room = .none) (h1 : 1 ≤ n)
    (h4 : n ≤ Config.maxChain) : (s.serveRequest c n).Sound b := by
  have hchan : ∀ r, (s.answered c r).holdings.Perm
      ((s.chan c).txq.map (TxEntry.holding c) ++ (r.holdings c ++ s.otherHoldings c)) := fun r => by
    have hp := State.holdings_updChan s c fun ch =>
      { ch with engine := { ch.engine with request := none, room := r } }
    rw [Channel.holdings_eq, List.append_assoc] at hp
    exact hp
  have ha := h.split c
  rw [hroom] at ha
  obtain heq | ⟨p, hp, hn, heq⟩ := s.serveRequest_cases c n
  · rw [heq]
    exact ha.sound rfl rfl rfl (hchan _)
  · rw [heq]
    have hu := ha.congr (t := s.answered c (.storing p)) rfl rfl rfl
    have hle := Nat.le_trans (Nat.le_add_right _ _) hn
    have hput := (hu.grant (o := .filling c) h1 h4 hle hp nofun).putHolding nofun
    refine hput.sound rfl rfl rfl ?_
    rw [State.grant_holdings]
    exact (hchan _).trans List.perm_middle

theorem serveOne (h : s.Sound b) (hl : s.Lawful) : s.serveOne.Sound b := by
  unfold State.serveOne
  split
  · exact h
  · next c _ =>
    split
    · exact h
    · next n hn =>
      obtain ⟨-, hroom, h1, h4⟩ := (hl.engine c nofun).law.2.2.1 n hn
      exact (h.serveRequest hroom h1 h4).same (State.SamePages.refl _).settle

theorem serveFor (h : s.Sound b) (hl : s.Lawful) (c : Chan) (k : Nat) : (s.serveFor c k).Sound b := by
  induction k generalizing s with
  | zero => exact h
  | succ k ih =>
    rw [State.serveFor]
    split
    · exact ih (h.serveOne hl) hl.serveOne
    · exact h

theorem serveAll (h : s.Sound b) (hl : s.Lawful) : s.serveAll.Sound b :=
  (((h.serveOne hl).serveOne hl.serveOne).serveOne hl.serveOne.serveOne).serveOne
    hl.serveOne.serveOne.serveOne

theorem beforeCharacter (h : s.Sound b) (hl : s.Lawful) (c : Chan) : (s.beforeCharacter c).Sound b := by
  unfold State.beforeCharacter
  split
  · exact h.serveFor hl c 4
  · exact h

/-! ### Ends of frames -/

/-- A frame whose engine fills no chain ends. -/
theorem endFrame (h : s.Sound b) (hroom : (s.chan c).engine.room.holdings c = []) (p : Parser) :
    (s.endFrame c p).Sound b :=
  h.same ((State.SamePages.refl s).updEngine c hroom.symm)

/-- A frame ends whose filling chain has been released, if it had one (R26, R62). -/
theorem frameDropped (h : s.Sound b) (hs : (s.dropFilling c).SamePages t) (p : Parser) :
    (t.endFrame c p).Sound b := by
  unfold State.dropFilling at hs
  split at hs
  · next hd hroom =>
    have ha := h.split c
    rw [hroom] at ha
    have hgone := (ha.perm List.perm_middle).takeHolding.release nofun
    refine hgone.sound hs.pageTable hs.freeList hs.port ((t.holdings_updChan c _).trans (.of_eq ?_))
    rw [Channel.holdings_eq, hs.otherHoldings, State.release_otherHoldings, List.append_assoc]
    simp [hs.txq, Engine.idle, Room.holdings]
  · next hroom => exact (h.same hs).endFrame (by rw [hs.room, hroom]; rfl) p
  · next hroom => exact (h.same hs).endFrame (by rw [hs.room, hroom]; rfl) p

theorem rejectFrame (h : s.Sound b) (c : Chan) (k : Counter) (p : Parser) :
    (s.rejectFrame c k p).Sound b := h.frameDropped ((State.SamePages.refl _).count c k) p

/-- A frame ends whose filling chain the received frame queue has taken over (R69). -/
theorem frameAccepted (h : s.Sound b) {hd : Page} (hroom : (s.chan c).engine.room = .storing hd)
    (hs : (s.appendFrame c hd).SamePages t) (p : Parser) : (t.endFrame c p).Sound b := by
  have ha := h.split c
  rw [hroom] at ha
  have hown := ((ha.perm List.perm_middle).takeHolding.setOwner (o' := .queuedRx) nofun nofun).putHolding
    nofun
  refine hown.sound (hs.pageTable.trans (s.appendFrame_pageTable c hd)) (hs.freeList.trans (by simp))
    (hs.port.trans (by simp)) ((t.holdings_updChan c _).trans ?_)
  have hrest := (List.Perm.append_left ((s.chan c).txq.map (TxEntry.holding c))
    (s.appendFrame_otherHoldings c hd)).trans List.perm_middle
  rw [Channel.holdings_eq, hs.otherHoldings]
  simpa [hs.txq, Engine.idle, Room.holdings] using hrest

theorem dataEnd (h : s.Sound b) (c : Chan) (p : Parser) : ((s.dataEnd c).endFrame c p).Sound b := by
  unfold State.dataEnd
  dsimp only
  split
  · have hseq := h.same ((State.SamePages.refl s).recordSeq c (s.chan c).engine.src
      (ctrlSeq (s.chan c).engine.ctrl))
    exact hseq.frameDropped (((State.SamePages.refl _).count c _).placeResponse c _ _) p
  · have hnone : (s.chan c).engine.room.holdings c = [] →
        (((s.count c .rxNoRoom).respondIf c (s.chan c).responding true (s.chan c).engine).endFrame
          c p).Sound b := fun hroom => by
      have hs := ((State.SamePages.refl s).count c .rxNoRoom).respondIf c (s.chan c).responding true
        (s.chan c).engine
      exact (h.same hs).endFrame (by rw [hs.room, hroom]) p
    split
    · next hroom => exact hnone (by rw [hroom]; rfl)
    · next hroom => exact hnone (by rw [hroom]; rfl)
    · next hd hroom =>
      have hcount := (State.SamePages.refl (s.appendFrame c hd)).count c .rxFrames
      split
      · split
        · exact h.frameAccepted hroom ((hcount.recordSeq c _ _).respondIf c _ _ _) p
        · exact h.frameAccepted hroom (hcount.respondIf c _ _ _) p
      · refine h.frameDropped (State.SamePages.respondIf ?_ c _ _ _) p
        rw [State.dropFilling, hroom]
        exact ((State.SamePages.refl _).count c _).raise _

end State.Sound

end Sys2Proof.Machine

/-!
PROOFS. The pages stay accounted for while characters come in, are read back and are sent: the receive
engines, the comparator and the ends of sending.
-/
namespace Sys2Proof.Machine

/-! ### A delivery leaves the engine alone -/

@[simp] theorem State.finishEntry_chan_engine (s : State) (c d : Chan) (o : TxOutcome) :
    ((s.finishEntry c o).chan d).engine = (s.chan d).engine := by
  cases hq : (s.chan c).txq with
  | nil => simp [State.finishEntry, hq]
  | cons e es =>
    have hdrop : ∀ u : State, (∀ d, (u.chan d).engine = (s.chan d).engine) →
        ((u.updChan c Channel.dropHead).chan d).engine = (s.chan d).engine := fun u hu => by
      rw [State.chan_updChan]
      split
      · next hd => rw [hd, ← hu c]; rfl
      · exact hu d
    rw [State.finishEntry_of_cons hq]
    refine hdrop _ fun d => ?_
    split <;> simp <;> rfl

@[simp] theorem State.updSeq_chan_engine (s : State) (c d : Chan) (f : Sequencer → Sequencer) :
    ((s.updSeq c f).chan d).engine = (s.chan d).engine := by
  rw [State.updSeq_chan]
  split
  · next hd => rw [hd]
  · rfl

@[simp] theorem State.claim_chan_engine (s : State) (c d : Chan) (o : TxOutcome) :
    ((s.claim c o).chan d).engine = (s.chan d).engine := by
  unfold State.claim
  split <;> simp

@[simp] theorem State.deliver_chan_engine (s : State) (c d : Chan) (nak : Bool) (src : Byte)
    (q : BitVec 3) : ((s.deliver c nak src q).chan d).engine = (s.chan d).engine := by
  unfold State.deliver
  dsimp only
  repeat' split
  all_goals simp

namespace State.Sound

variable {b : Prop} {s : State} {c : Chan}

/-! ### The receive engine -/

/-- The decision at a frame's end, and that end: only a DATA frame fills a chain (R64 to R69). -/
theorem decided (h : s.Sound b)
    (hroom : ctrlKind (s.chan c).engine.ctrl ≠ .data → (s.chan c).engine.room = .none) (p : Parser) :
    ((s.decide c).endFrame c p).Sound b := by
  have hempty : ctrlKind (s.chan c).engine.ctrl ≠ .data →
      (s.chan c).engine.room.holdings c = [] := fun hk => by rw [hroom hk]; rfl
  unfold State.decide
  dsimp only
  split
  · exact h.dataEnd c p
  · next hk =>
    have hend := hempty (by simp [hk])
    split
    · exact (h.deliver c _ _ _).endFrame (by simpa using hend) p
    · exact h.endFrame hend p
  · next hk =>
    have hend := hempty (by simp [hk])
    split
    · exact (h.deliver c _ _ _).endFrame (by simpa using hend) p
    · exact h.endFrame hend p
  · next hk =>
    have hend := hempty (by simp [hk])
    split
    · have hs := (State.SamePages.refl s).holdDelivered c (s.chan c).engine.duration
      exact (h.same hs).endFrame (by rw [hs.room, hend]) p
    · exact h.endFrame hend p

theorem frameEnd (h : s.Sound b) (hlaw : (s.chan c).engine.Law) (lo : Byte) :
    (s.frameEnd c lo).Sound b := by
  have hdecided := h.same ((State.SamePages.refl s).updEngine c
    (f := fun e => { e with parser := .checkLo }) rfl)
  unfold State.frameEnd
  dsimp only
  split
  · refine hdecided.decided (fun hk => ?_) .hunt
    rw [State.updEngine_chan, if_pos rfl] at hk ⊢
    exact Classical.byContradiction fun hroom => hk (hlaw.2.2.2.2 (.inl hroom))
  · exact hdecided.rejectFrame c _ _

theorem takeDest (h : s.Sound b) (hroom : (s.chan c).engine.room = .none) (d : Byte) :
    (s.takeDest c d).Sound b := by
  have hempty : (s.chan c).engine.room.holdings c = [] := by rw [hroom]; rfl
  unfold State.takeDest
  split
  · exact h.endFrame hempty _
  · split
    · exact h.rejectFrame c _ _
    · exact h.same ((State.SamePages.refl s).updEngine c hempty.symm)

theorem takeField (h : s.Sound b) (ok : Bool) {f : Engine → Engine} (hf : ∀ e, (f e).room = e.room) :
    (s.takeField c ok f).Sound b := by
  unfold State.takeField
  split
  · exact h.same ((State.SamePages.refl s).updEngine c (congrArg (Room.holdings c) (hf _)))
  · exact h.rejectFrame c _ _

theorem takePayload (h : s.Sound b) (d : Byte) : (s.takePayload c d).Sound b := by
  have hfield : ∀ u : State, s.SamePages u → (u.updEngine c fun e =>
      { e with
        parser := .payload, count := e.count + 1, check := crcByte e.check d
        duration := if ctrlKind e.ctrl = .hold then d else e.duration }).Sound b := fun u hu =>
    h.same (hu.updEngine c rfl)
  unfold State.takePayload
  dsimp only
  split
  · exact hfield _ ((State.SamePages.refl s).storeChain _ _ _)
  · exact hfield s (.refl s)
  · exact hfield s (.refl s)

theorem takeNext (h : s.Sound b) (hlaw : (s.chan c).engine.Law) (d : Byte) :
    (s.takeNext c d).Sound b := by
  have hpast : (if (s.chan c).engine.count < (s.chan c).engine.len.toNat then s.takePayload c d
      else s.takeCheckHi c d).Sound b := by
    split
    · exact h.takePayload d
    · exact h.same ((State.SamePages.refl s).updEngine c rfl)
  unfold State.takeNext
  dsimp only
  split
  · exact h
  · exact h
  · exact h
  · exact h.takeField _ fun _ => rfl
  · exact h.takeField _ fun _ => rfl
  · exact h.takeField _ fun _ => rfl
  · exact hpast
  · exact hpast
  · exact h.frameEnd hlaw d

theorem engineTake (h : s.Sound b) (hlaw : (s.chan c).engine.Law) (z : Character) :
    (s.engineTake c z).Sound b := by
  have hearly : (s.chan c).engine.parser.inFlight ≠ true → (s.chan c).engine.room = .none := fun hp => by
    refine (hlaw.early ?_).1
    revert hp
    cases (s.chan c).engine.parser <;> simp [Parser.inFlight, Parser.pastLen]
  unfold State.engineTake
  split
  · dsimp only
    split
    · split
      · exact h.rejectFrame c _ _
      · next hp =>
        split
        · exact h.endFrame (by rw [hearly hp]; rfl) _
        · exact h
    · split
      · split
        · refine (h.rejectFrame c _ _).takeDest ?_ _
          rw [State.rejectFrame, State.endFrame_chan, if_pos rfl]
          rfl
        · next hp => exact h.takeDest (hearly hp) _
      · exact h.takeNext hlaw _
  · exact h

/-! ### The comparator -/

theorem reportClean (h : s.Sound b) (c : Chan) (k : TxKind) : (s.reportClean c k).Sound b := by
  cases k with
  | response => exact h
  | flow => exact h.same ((State.SamePages.refl s).flowClean c)
  | data => exact h.attemptClean c

theorem reportCollision (h : s.Sound b) (c : Chan) (k : TxKind) : (s.reportCollision c k).Sound b := by
  cases k with
  | response => exact h.same ((State.SamePages.refl s).count c _)
  | flow => exact h.same ((State.SamePages.refl s).flowCollision c)
  | data => exact h.attemptCollision c

theorem readback (h : s.Sound b) (c : Chan) (f : Sending) (z : Character) :
    (s.readback c f z).Sound b := by
  have hline : ∀ l, (s.setLine c l).Sound b := fun l => h.same ((State.SamePages.refl s).setLine c l)
  unfold State.readback
  dsimp only
  split
  · exact h
  · split
    · split
      · exact (hline _).reportClean c _
      · exact hline _
    · exact hline _

theorem completeCharacter (h : s.Sound b) (hlaw : (s.chan c).engine.Law) (z : Character) :
    (s.completeCharacter c z).Sound b := by
  have hreceived : (s.updChan c (Channel.received z)).Sound b :=
    h.same ((State.SamePages.refl s).chan c rfl rfl)
  unfold State.completeCharacter
  dsimp only
  split
  · refine hreceived.engineTake ?_ z
    rw [State.chan_updChan_same]
    exact hlaw
  · exact hreceived.readback c _ z

theorem receiveCharacter (h : s.Sound b) (hl : s.Lawful) (z : Character) :
    (s.receiveCharacter c z).Sound b := by
  have hbefore := h.beforeCharacter hl c
  unfold State.receiveCharacter
  dsimp only
  split
  · have hlaw := ((hl.beforeCharacter (c := c)).engine c nofun).law
    exact (hbefore.completeCharacter hlaw z).same (State.SamePages.refl _).settle
  · exact hbefore

theorem lineCharacter (h : s.Sound b) (hl : s.ChannelsLaw) (z : Character) :
    (s.lineCharacter c z).Sound b := by
  have hstart : (s.startBit c).settle.Sound b := h.same ((State.SamePages.refl s).startBit c).settle
  unfold State.lineCharacter
  dsimp only
  split
  · split
    · exact h
    · exact h.receiveCharacter hl.lawful z
    · split
      · exact hstart.receiveCharacter hl.startBit.lawful z
      · exact hstart
    · split
      · exact hstart.receiveCharacter hl.startBit.lawful z
      · exact hstart
  · exact h

/-! ### ABORT -/

theorem abortStart (h : s.Sound b) (c : Chan) : (s.abortStart c).Sound b := by
  have hended : (((s.updChan c Channel.aborted).dropFilling c).endFrame c .hunt).Sound b :=
    State.Sound.frameDropped (h.same ((State.SamePages.refl s).chan c rfl rfl)) (.refl _) .hunt
  unfold State.abortStart
  dsimp only
  split
  · exact hended.completeAborted c
  · exact hended

theorem abortFinish (h : s.Sound b) (c : Chan) : (s.abortFinish c).Sound b := by
  have hline : (s.setLine c .quiet).Sound b := h.same ((State.SamePages.refl s).setLine c _)
  have hoff : ∀ u : State, u.Sound b →
      (({ (u.updChan c Channel.toOff) with busy := none }.raise .chanOff).done .ok).Sound b := fun u hu => by
    have hs : u.SamePages { (u.updChan c Channel.toOff) with busy := none } :=
      State.SamePages.of_chans ((State.SamePages.refl u).chan c (f := Channel.toOff) rfl rfl) rfl rfl rfl
        rfl rfl
    exact hu.same ((hs.raise _).done _)
  unfold State.abortFinish
  dsimp only
  split
  · exact hoff _ (hline.completeAborted c)
  · exact hoff _ hline

end State.Sound

end Sys2Proof.Machine

/-!
PROOFS. The pages stay accounted for, and the data port keeps its law, under the host's commands and
accesses.
-/
namespace Sys2Proof.Machine

open PageTable.Accounts

/-! ### The data port follows its chain -/

/-- A chain that stops being HELD takes the port off it (R40). -/
theorem State.portWithout_ok {s : State} {t : PageTable} {h : Page}
    (hp : Holds.Apart h s.port → t.PortOk s.port) : t.PortOk (s.portWithout h) := by
  unfold State.portWithout
  split
  · exact .detached t
  · next hno =>
    refine hp ?_
    by_cases hpage : s.port.page = h
    · left
      cases hm : s.port.mode <;> simp [hm, hpage] at hno ⊢
    · exact .inr hpage

variable {b : Prop} {s t : State} {H : List (Page × Owner)} {h : Page} {o o' : Owner}

/-- The host gives its chain back (R33). -/
theorem State.InHand.releaseDetached (hh : s.InHand b H h o) (ht : t.pageTable = (s.release h).pageTable)
    (hf : t.freeList = (s.release h).freeList) (hp : t.port = s.portWithout h) : t.Accounted b H := by
  refine ⟨?_, fun hb => ?_⟩
  · rw [ht, hf, State.release_pageTable, State.release_freeList]
    exact hh.pages.release
  · rw [ht, hp, State.release_pageTable]
    exact State.portWithout_ok (hh.pages.release_port (hh.port hb))

/-- The host hands its chain over (R108). -/
theorem State.InHand.ownDetached (hh : s.InHand b H h o) (hne : o' ≠ .free)
    (ht : t.pageTable = (s.setOwner h o').pageTable) (hf : t.freeList = s.freeList)
    (hp : t.port = s.portWithout h) : t.InHand b H h o' := by
  refine ⟨?_, fun hb => ?_⟩
  · rw [ht, hf]
    exact hh.pages.own hne
  · rw [ht, hp]
    exact State.portWithout_ok (hh.pages.own_port (hh.port hb))

/-- The port moves to a place in a HELD chain (R35, R95). -/
theorem State.InHand.attached (hh : s.InHand b H h .held) {off : Byte}
    (hoff : off.toNat < 64 * s.pageCount h) (ht : t.pageTable = s.pageTable) (hf : t.freeList = s.freeList)
    (hp : t.port = ⟨.attached, h, off⟩) : t.Accounted b H := by
  refine ⟨?_, fun _ => ?_⟩
  · rw [ht, hf]
    exact hh.putHeld.pages
  · rw [ht, hp]
    exact ⟨fun _ => ⟨hh.pages.head, hh.pages.owner, hoff⟩, nofun, nofun⟩

/-- An access at the pointer moves it on (R36). -/
theorem State.Accounted.portAdvance (ha : s.Accounted b H) (hm : s.port.mode = .attached) :
    s.portAdvance.Accounted b H := by
  have hnot : s.port.mode ≠ .detached := by simp [hm]
  unfold State.portAdvance
  split
  · next hlt =>
    refine ⟨ha.pages, fun hb => ?_⟩
    obtain ⟨hhead, howner, -⟩ := (ha.port hb).1 hnot
    have hnext : (s.port.offset + 1).toNat ≤ s.port.offset.toNat + 1 := by
      rw [BitVec.toNat_add]
      exact Nat.mod_le _ _
    exact ⟨fun _ => ⟨hhead, howner, Nat.lt_of_le_of_lt hnext hlt⟩,
      fun he => absurd (hm.symm.trans he) nofun, fun hd => absurd hd hnot⟩
  · next hlast =>
    refine ⟨ha.pages, fun hb => ?_⟩
    obtain ⟨hhead, howner, hoff⟩ := (ha.port hb).1 hnot
    exact ⟨fun _ => ⟨hhead, howner, hoff⟩, fun _ => Nat.le_antisymm hoff (Nat.not_lt.mp hlast), nofun⟩

/-! ### Lists of entries -/

theorem List.perm_cons_eraseP {α : Type} {p : α → Bool} {l : List α} {a : α} (h : l.find? p = some a) :
    l.Perm (a :: l.eraseP p) := by
  obtain ⟨hp, before, after, rfl, hbefore⟩ := List.find?_eq_some_iff_append.mp h
  have hnone : ∀ x ∈ before, ¬ p x = true := fun x hx => by simpa using hbefore x hx
  rw [List.eraseP_append_right _ hnone, List.eraseP_cons_of_pos hp]
  exact List.perm_middle

theorem State.releaseAll_holdings (s : State) (l : List TxEntry) :
    (s.releaseAll l).holdings = s.holdings := by
  induction l generalizing s with
  | nil => rfl
  | cons e es ih => exact (ih _).trans (s.release_holdings e.head)

/-- Entries leave their queue and their chains are released (R113). -/
theorem State.Accounted.releaseAll {c : Chan} {l : List TxEntry}
    (ha : s.Accounted b (l.map (TxEntry.holding c) ++ H)) : (s.releaseAll l).Accounted b H := by
  induction l generalizing s with
  | nil => exact ha
  | cons e es ih => exact ih (State.Accounted.takeHolding ha |>.release (e.holding_ne_held c))

namespace State.Sound

variable {c : Chan}

theorem done (h : s.Sound b) (k : StatusCode) : (s.done k).Sound b :=
  h.same ((State.SamePages.refl s).done k)

theorem settle (h : s.Sound b) : s.settle.Sound b := h.same (State.SamePages.refl s).settle

theorem takeHeld (h : s.Sound b) {hd : Page} (hh : s.isHeldHead hd = true) :
    s.InHand b s.holdings hd .held := by
  obtain ⟨hm, ho⟩ := (s.isHeldHead_iff hd).mp hh
  exact State.Accounted.takeHeld h hm ho

/-- What the blocks hold has no part in where the port is. -/
theorem ofPort {u : State} {p : DataPort} (ha : State.Accounted b { u with port := p } u.holdings)
    (k : StatusCode) : (State.completed { u with port := p } k).Sound b :=
  State.Accounted.sound ha rfl rfl rfl (.refl _)

/-! ### Commands over chains -/

theorem allocPages (h : s.Sound b) {n : Nat} (h1 : 1 ≤ n) (h4 : n ≤ Config.maxChain) :
    (s.allocPages n).Sound b := by
  unfold State.allocPages
  split
  · next hn =>
    split
    · exact h.done _
    · next p ps hfree =>
      have hh : s.freeList.head? = some p := by rw [hfree]; rfl
      have hgrant := (State.Accounted.grant h (o := .held) h1 h4 hn hh nofun).putHeld
      refine State.Accounted.sound hgrant rfl rfl rfl (.of_eq ?_)
      exact s.grant_holdings .held n
  · exact h.done _

theorem allocBody (h : s.Sound b) (hl : s.Lawful) : s.allocBody.Sound b := by
  unfold State.allocBody
  dsimp only
  split
  · exact h.done _
  · next hn =>
    obtain ⟨h0, h4⟩ := not_or.mp hn
    exact ((h.serveAll hl).allocPages (Nat.pos_of_ne_zero h0) (Nat.not_lt.mp h4)).settle

theorem releaseBody (h : s.Sound b) : s.releaseBody.Sound b := by
  by_cases hh : s.isHeldHead s.arg[0] = true
  · rw [State.releaseBody_of_held hh]
    have hgone := (h.takeHeld hh).releaseDetached
      (t := { s.release s.arg[0] with port := s.portWithout s.arg[0] }) rfl rfl rfl
    exact (ofPort (hgone.perm (.of_eq (s.release_holdings _).symm)) .ok).settle
  · rw [State.releaseBody_of_not_held hh]
    exact h.done .badChain

theorem seekBody (h : s.Sound b) : s.seekBody.Sound b := by
  by_cases hh : s.isHeldHead s.arg[0] = true
  · rw [State.seekBody_of_held hh]
    split
    · exact h.done .badArg
    · next hoff =>
      have hatt := (h.takeHeld hh).attached (Nat.not_le.mp hoff)
        (t := { s with port := ⟨.attached, s.arg[0], s.arg[1]⟩ }) rfl rfl rfl
      exact State.Accounted.sound hatt rfl rfl rfl (.refl _)
  · rw [State.seekBody_of_not_held hh]
    exact h.done .badChain

theorem takeBody (h : s.Sound b) : s.takeBody.Sound b := by
  cases hq : s.rfq with
  | nil =>
    rw [State.takeBody, hq]
    exact h.done _
  | cons e rest =>
    have hin : s.InHand b (State.holdings { s with rfq := rest }) e.head .queuedRx := by
      refine State.Accounted.takeHolding (h.perm (.of_eq ?_))
      unfold State.holdings
      rw [hq]
      rfl
    have hheld := hin.setOwner (o' := .held) nofun nofun
    have hlen : (0x00 : Byte).toNat < 64 * (s.setOwner e.head .held).pageCount e.head := by
      have := List.length_pos_of_mem ((s.setOwner e.head .held).pageTable.head_mem_chain e.head)
      exact Nat.mul_pos (by decide) this
    rw [State.takeBody_of_cons hq]
    have hatt := hheld.attached hlen (t := { s.setOwner e.head .held with
      port := ⟨.attached, e.head, 0x00⟩ }) rfl rfl rfl
    exact State.Accounted.sound hatt rfl rfl rfl (.refl _)

/-! ### Commands over the queues -/

theorem submitAccept (h : s.Sound b) (hh : s.isHeldHead s.arg[0] = true) (c : Chan) :
    (s.submitAccept c).Sound b := by
  have hqueued := (h.takeHeld hh).ownDetached (o' := .queuedTx c) nofun
    (t := { s.setOwner s.arg[0] (.queuedTx c) with port := s.portWithout s.arg[0] }) rfl rfl rfl
  rw [State.submitAccept_eq s c rfl]
  refine State.Accounted.sound (hqueued.putHolding nofun) rfl rfl rfl ?_
  have hp := State.holdings_updChan s c fun ch => Channel.workArrived
    { ch with txq := ch.txq ++ [s.submitEntry c], seqCounter := ch.seqCounter + 1 }
  refine List.Perm.trans hp ?_
  have hrest := (s.holdings_perm c).symm.cons (s.arg[0], Owner.queuedTx c)
  refine List.Perm.trans ?_ hrest
  rw [Channel.holdings_eq, Channel.holdings_eq, Channel.workArrived_eq, List.map_append,
    List.append_assoc, List.append_assoc, List.append_assoc]
  exact List.perm_middle

theorem submitBody (h : s.Sound b) : s.submitBody.Sound b := by
  unfold State.submitBody
  dsimp only
  split
  · exact h.done _
  · next hh =>
    repeat' split
    case h_2.isFalse.isFalse.isFalse => exact h.submitAccept (by simpa [State.argByte] using hh) _
    all_goals exact h.done _

/-- An entry that is not active is taken out of its queue and its chain goes to the host (R112). -/
theorem withdraw (h : s.Sound b) {e : TxEntry} {tag : Byte}
    (hfind : findCancel (s.chan c).txq tag = some e) :
    ((s.setOwner e.head .held).updChan c fun ch => Channel.headWithdrawn
      { ch with txq := ch.txq.eraseP fun e => !e.active && e.tag == tag }).Sound b := by
  have hfirst : (s.chan c).txq.find? (fun e => !e.active && e.tag == tag) = some e := hfind
  have ha := (h.split c).perm (((List.perm_cons_eraseP hfirst).map (TxEntry.holding c)).append_right _)
  have hheld := ((State.Accounted.takeHolding ha).setOwner (o' := .held) (e.holding_ne_held c)
    nofun).putHeld
  refine State.Accounted.sound hheld rfl rfl rfl ((State.holdings_updChan _ c _).trans (.of_eq ?_))
  rw [Channel.holdings_eq, Channel.headWithdrawn_eq, List.append_assoc]
  rfl

theorem cancelBody (h : s.Sound b) : s.cancelBody.Sound b := by
  unfold State.cancelBody
  dsimp only
  split
  · exact h.done _
  · next c _ =>
    split
    · next e hfind => exact (h.withdraw hfind).same (((State.SamePages.refl _).setRes _ _).done _)
    · split <;> exact h.done _

theorem flushBody (h : s.Sound b) : s.flushBody.Sound b := by
  unfold State.flushBody
  dsimp only
  split
  · exact h.done _
  · next c _ =>
    have hparts : ((s.chan c).txq.map (TxEntry.holding c)).Perm
        (((s.chan c).txq.filter fun e => !e.active).map (TxEntry.holding c) ++
          ((s.chan c).txq.filter fun e => e.active).map (TxEntry.holding c)) := by
      rw [← List.map_append]
      exact ((List.perm_append_comm.trans (List.filter_append_perm _ _)).map _).symm
    have ha := (h.split c).perm (hparts.append_right _)
    rw [List.append_assoc] at ha
    have hgone := State.Accounted.releaseAll (ha.congr (t := s.updChan c fun ch =>
      Channel.headWithdrawn { ch with txq := ch.txq.filter fun e => e.active }) rfl rfl rfl)
    refine same (State.Accounted.perm hgone ?_) (((State.SamePages.refl _).setRes _ _).done _).settle
    rw [State.releaseAll_holdings]
    refine ((State.holdings_updChan s c _).trans (.of_eq ?_)).symm
    rw [Channel.holdings_eq, Channel.headWithdrawn_eq, List.append_assoc]

theorem popdoneBody (h : s.Sound b) : s.popdoneBody.Sound b := by
  unfold State.popdoneBody
  split
  · exact h.done _
  · next r rest _ =>
    have hplace : s.SamePages { s with tcq := rest } :=
      (State.SamePages.refl s).of_chans rfl rfl rfl rfl rfl
    exact (((h.same (hplace.loadRes 0 (recordBytes r))).servePlace).done _).settle

/-! ### Channel control -/

theorem enableBody (h : s.Sound b) (hl : s.Lawful) : s.enableBody.Sound b := by
  unfold State.enableBody
  split
  · exact h.done _
  · next c _ =>
    split
    · next hm =>
      have hidle := (hl.engine c nofun).rest (.inl hm)
      refine h.same (((State.SamePages.refl s).chan c ?_ ?_).done _) <;> rw [Channel.enabled_eq]
      rw [hidle]
    · exact h.done _

theorem disableBody (h : s.Sound b) : s.disableBody.Sound b := by
  unfold State.disableBody
  split
  · exact h.done _
  · next c _ =>
    split
    · exact h.same (((State.SamePages.refl s).chan c rfl rfl).done _).settle
    · exact h.done _

theorem abortBody (h : s.Sound b) : s.abortBody.Sound b := by
  unfold State.abortBody
  split
  · exact h.done _
  · next c _ =>
    split
    · dsimp only
      split
      · exact ((h.abortStart c).abortFinish c).settle
      · have hbusy := (h.abortStart c).same
          (t := { s.abortStart c with busy := some c, cmdStatus := .inProg })
          ((State.SamePages.refl _).of_chans rfl rfl rfl rfl rfl)
        exact hbusy.settle
    · exact h.done _

/-! ### Tables, counters and accesses -/

theorem stwriteBody (h : s.Sound b) : s.stwriteBody.Sound b := by
  unfold State.stwriteBody
  split
  · exact h.done _
  · split
    · exact h.done _
    · exact h.same ((State.SamePages.refl s).of_chans rfl rfl rfl rfl rfl)

theorem streadBody (h : s.Sound b) : s.streadBody.Sound b := by
  unfold State.streadBody
  split
  · exact h.done _
  · exact h.same (((State.SamePages.refl s).loadRes _ _).done _)

theorem counterBody (h : s.Sound b) : s.counterBody.Sound b := by
  unfold State.counterBody
  dsimp only
  split
  · next c k _ _ =>
    have hres := (State.SamePages.refl s).loadRes 0
      [loByte (s.chan c).counters[k], hiByte (s.chan c).counters[k]]
    split
    · exact h.same ((hres.chan c rfl rfl).done _)
    · exact h.same (hres.done _)
  · exact h.done _

theorem portAdvance (h : s.Sound b) (hm : s.port.mode = .attached) : s.portAdvance.Sound b := by
  refine State.Accounted.sound (State.Accounted.portAdvance h hm) rfl rfl rfl (.of_eq ?_)
  have hchans : s.portAdvance.chans = s.chans := by simp
  exact State.holdings_congr (by simp) fun c => by rw [State.chan_def, hchans, State.chan_def]

theorem dataReadOp (h : s.Sound b) : s.dataReadOp.Sound b := by
  have hout : ∀ v, s.SamePages { s with dOut := v } := fun v =>
    (State.SamePages.refl s).of_chans rfl rfl rfl rfl rfl
  unfold State.dataReadOp
  split
  · next hm => exact (h.same (hout _)).portAdvance hm
  · exact h.same ((hout _).raise _)

theorem dataWriteOp (h : s.Sound b) (v : Byte) : (s.dataWriteOp v).Sound b := by
  unfold State.dataWriteOp
  split
  · next hm =>
    exact (h.same ((State.SamePages.refl s).storeChain _ _ v)).portAdvance (by simpa using hm)
  · exact h.same ((State.SamePages.refl s).raise _)

theorem hostRead (h : s.Sound b) (off : Offset) : (s.hostRead off).Sound b := by
  unfold State.hostRead
  split
  · exact h.dataReadOp
  · unfold State.snapshot
    split <;> exact h.same ((State.SamePages.refl s).of_chans rfl rfl rfl rfl rfl)

theorem hostWrite (h : s.Sound b) {off : Offset} (hw : off.writeHasOwnRow = false) (v : Byte) :
    (s.hostWrite off v).Sound b := by
  rw [State.hostWrite, if_neg (by simp [hw])]
  unfold State.registerWriteOp
  split
  case h_15 | h_16 | h_17 | h_18 | h_19 | h_20 | h_21 | h_22 | h_23 | h_24 | h_25 =>
    exact h.same ((State.SamePages.refl s).chan _ rfl rfl)
  all_goals exact h.same ((State.SamePages.refl s).of_chans rfl rfl rfl rfl rfl)

end State.Sound

end Sys2Proof.Machine

/-!
PROOFS. The pages stay accounted for under the part's own events, the resets and the clock, and so under
every step (O58).
-/
namespace Sys2Proof.Machine

namespace State.Sound

variable {b : Prop} {s t : State} {c : Chan}

/-! ### Events of the receiver and the receive engine -/

theorem lineSampledHigh (h : s.Sound b) (ht : exec (.lineSampledHigh c) s = .next t) : t.Sound b := by
  rw [exec_lineSampledHigh] at ht
  cases ht
  split
  · exact h.same ((State.SamePages.refl s).chan c rfl rfl)
  · exact h

theorem lineFault (h : s.Sound b) (ht : exec (.lineFault c) s = .next t) : t.Sound b := by
  cases hl : (s.chan c).faultable with
  | none =>
    rw [exec_lineFault_of_none hl] at ht
    cases ht
    exact h
  | some l =>
    rw [exec_lineFault_of_some hl] at ht
    cases ht
    exact h.same (((State.SamePages.refl s).chan c rfl rfl).raise _)

theorem gapExpiry (h : s.Sound b) (hl : s.Lawful) (ht : exec (.gapExpiry c) s = .next t) :
    t.Sound b := by
  rw [exec_gapExpiry] at ht
  cases ht
  split
  · have hidle := h.same ((State.SamePages.refl s).idleAtLeast c ((s.chan c).gapLimit + 1))
    exact ((hidle.serveFor (State.ChannelsLaw.idleAtLeast hl c _) c 4).rejectFrame c _ _).settle
  · exact h

theorem skipGapExit (h : s.Sound b) (hl : s.Lawful) (ht : exec (.skipGapExit c) s = .next t) :
    t.Sound b := by
  rw [exec_skipGapExit] at ht
  cases ht
  split
  · next hc =>
    obtain ⟨-, -, hskip⟩ := hc
    have hidle := (State.SamePages.refl s).idleAtLeast c ((s.chan c).gapLimit + 1)
    obtain ⟨hroom, -⟩ := (hl.engine c nofun).law.early (by rw [hskip]; rfl)
    exact ((h.same hidle).endFrame (by rw [hidle.room, hroom]; rfl) _).settle
  · exact h

/-! ### Starts of frames -/

theorem responseStart (h : s.Sound b) (ht : exec (.responseStart c) s = .next t) : t.Sound b := by
  cases hr : (s.chan c).response with
  | none =>
    rw [exec_responseStart_of_none hr] at ht
    cases ht
    exact h
  | some r =>
    have hempty : s.SamePages (s.updChan c fun ch => { ch with response := none }) :=
      (State.SamePages.refl s).chan c rfl rfl
    rw [exec_responseStart_of_some hr] at ht
    cases ht
    split
    · split
      · exact h.same (hempty.setLine c _).settle
      · exact h.same ((State.SamePages.refl s).dropResponse c).settle
    · exact h

theorem flowFrameStart (h : s.Sound b) (ht : exec (.flowFrameStart c) s = .next t) : t.Sound b := by
  cases hf : (s.chan c).flow with
  | none =>
    simp only [exec, execFlowFrameStart, hf] at ht
    cases ht
    exact h
  | some g =>
    rw [exec_flowFrameStart_of_some hf] at ht
    cases ht
    split
    · split
      · exact h.same (State.SamePages.setLine ((State.SamePages.refl s).chan c rfl rfl) c _)
      · exact h.same (((State.SamePages.refl s).chan c rfl rfl).dropFlow c).settle
    · exact h

/-- The head entry becomes active and its chain ACTIVE_TX (R111, R131). -/
theorem headActivated (h : s.Sound b) {e : TxEntry} {es : List TxEntry} (hq : (s.chan c).txq = e :: es)
    {f : Channel → Channel}
    (hfq : (f (s.chan c)).txq = activateHead (s.chan c).txq)
    (hfr : (f (s.chan c)).engine.room.holdings c = (s.chan c).engine.room.holdings c) :
    ((s.setOwner e.head (.activeTx c)).updChan c f).Sound b := by
  have ha := h.split c
  rw [hq, List.map_cons, List.cons_append] at ha
  have hactive := (ha.takeHolding.setOwner (o' := .activeTx c) (e.holding_ne_held c) nofun).putHolding nofun
  refine State.Accounted.sound hactive rfl rfl rfl ((State.holdings_updChan _ c f).trans (.of_eq ?_))
  rw [Channel.holdings_eq, show (s.setOwner e.head (.activeTx c)).chan c = s.chan c from rfl, hfq, hfr, hq,
    List.append_assoc]
  rfl

theorem attemptStart (h : s.Sound b) (hl : s.Lawful) (ht : exec (.attemptStart c) s = .next t) :
    t.Sound b := by
  cases hq : (s.chan c).txq with
  | nil =>
    simp only [exec, execAttemptStart, hq] at ht
    cases ht
    exact h
  | cons e es =>
    have hhead : (s.chan c).headActive = e.active := by simp [Channel.headActive, hq]
    obtain ⟨-, hattempts, -⟩ := (hl.core c nofun).queue
    rw [hhead] at hattempts
    rw [exec_attemptStart_of_cons hq] at ht
    cases ht
    split
    · split
      · have hactive := h.headActivated hq (f := fun ch =>
          { (ch.idleAtLeast ch.spacingBits) with
            txq := activateHead ch.txq
            sequencer := ch.sequencer.started ch.retryLimit }) rfl rfl
        exact hactive.same ((State.SamePages.refl _).setLine c _)
      · next hzero =>
        have hact : e.active = true := by simpa using fun he => hzero (hattempts.mpr he)
        have hsame : activateHead (s.chan c).txq = (s.chan c).txq := by
          rw [hq, activateHead, ← hact]
        exact h.same (State.SamePages.setLine ((State.SamePages.refl s).chan c hsame rfl) c _)
    · exact h

/-! ### Ends of sending -/

theorem missingReadback (h : s.Sound b) (ht : exec (.missingReadback c) s = .next t) : t.Sound b := by
  cases hl : (s.chan c).lineTx with
  | quiet =>
    rw [exec_missingReadback_of_quiet hl] at ht
    cases ht
    exact h
  | sending f =>
    rw [exec_missingReadback_of_sending hl] at ht
    cases ht
    split
    · exact h
    · exact h.same ((State.SamePages.refl s).setLine c _)

theorem lineTransmitterQuiet (h : s.Sound b) (ht : exec (.lineTransmitterQuiet c) s = .next t) :
    t.Sound b := by
  cases hl : (s.chan c).lineTx with
  | quiet =>
    rw [exec_lineTransmitterQuiet_of_quiet hl] at ht
    cases ht
    exact h
  | sending f =>
    rw [exec_lineTransmitterQuiet_of_sending hl] at ht
    cases ht
    split
    · exact h.same ((State.SamePages.refl s).setLine c _).settle
    · exact h

theorem collisionReported (h : s.Sound b) (ht : exec (.collisionReported c) s = .next t) :
    t.Sound b := by
  cases hl : (s.chan c).lineTx with
  | quiet =>
    rw [exec_collisionReported_of_quiet hl] at ht
    cases ht
    exact h
  | sending f =>
    have hquiet := h.same ((State.SamePages.refl s).setLine c .quiet)
    rw [exec_collisionReported_of_sending hl] at ht
    cases ht
    split
    · exact (hquiet.reportCollision c _).settle
    · exact h

theorem abortComplete (h : s.Sound b) (ht : exec (.abortComplete c) s = .next t) : t.Sound b := by
  rw [exec_abortComplete] at ht
  cases ht
  split
  · exact (h.abortFinish c).settle
  · exact h

/-! ### Timers -/

theorem backoffExpiry (h : s.Sound b) (ht : exec (.backoffExpiry c) s = .next t) : t.Sound b := by
  rw [exec_backoffExpiry] at ht
  cases ht
  split
  · exact h.same ((State.SamePages.refl s).updSeq c _)
  · exact h

theorem busyExpiry (h : s.Sound b) (ht : exec (.busyExpiry c) s = .next t) : t.Sound b := by
  rw [exec_busyExpiry] at ht
  cases ht
  split
  · exact h.same ((State.SamePages.refl s).updSeq c _)
  · exact h

theorem txAckTimeouts (h : s.Sound b) (ht : exec (.txAckTimeouts c) s = .next t) : t.Sound b := by
  rw [exec_txAckTimeouts] at ht
  cases ht
  split
  · exact (h.ackTimeout c).settle
  · exact h

theorem refreshExpiry (h : s.Sound b) (ht : exec (.refreshExpiry c) s = .next t) : t.Sound b := by
  rw [exec_refreshExpiry] at ht
  cases ht
  split
  · exact h.same ((State.SamePages.refl s).chan c rfl rfl)
  · exact h

theorem flowBackoffExpiry (h : s.Sound b) (ht : exec (.flowBackoffExpiry c) s = .next t) :
    t.Sound b := by
  cases hf : (s.chan c).flow with
  | none =>
    rw [exec_flowBackoffExpiry_of_none hf] at ht
    cases ht
    exact h
  | some f =>
    rw [exec_flowBackoffExpiry_of_some hf] at ht
    cases ht
    split
    · exact h.same ((State.SamePages.refl s).chan c rfl rfl)
    · exact h

theorem startBitDetected (h : s.Sound b) (ht : exec (.startBitDetected c) s = .next t) : t.Sound b := by
  rw [exec_startBitDetected] at ht
  cases ht
  split
  · exact h.same ((State.SamePages.refl s).startBit c).settle
  · exact h

/-! ### The resets and the clock -/

/-- A part with every page free and the port detached, as after pin reset (R191, R192). -/
theorem of_reset (ht : t.pageTable = State.reset.pageTable) (hf : t.freeList = State.reset.freeList)
    (hp : t.port = State.reset.port) (hr : t.rfq = State.reset.rfq)
    (hc : ∀ c, (t.chan c).holdings c = (Channel.reset).holdings c) : t.Sound b := by
  have hreset : State.reset.Sound b :=
    (State.sound_iff b _).mpr ⟨Sparse.wf_nil, State.reset_pagesLaw, fun _ => PageTable.PortOk.detached _⟩
  refine State.Accounted.sound hreset ht hf hp (.of_eq (State.holdings_congr hr fun c => ?_))
  rw [hc, State.reset_chan]

theorem softReset (s : State) : s.softReset.Sound b :=
  of_reset rfl rfl rfl rfl fun c => by rw [State.softReset_chan]; rfl

theorem pinReset (s : State) : s.pinReset.Sound b :=
  of_reset rfl rfl rfl rfl fun c => by
    rw [State.chan_def, State.pinReset, Quad.get_map]
    rfl

theorem advance (h : s.Sound b) : s.advance.Sound b := by
  have hclock : ∀ c, (s.advance.chan c).txq = (s.chan c).txq ∧
      (s.advance.chan c).engine = (s.chan c).engine := fun c => by
    rw [State.chan_advance, State.clockChan]
    obtain hc | ⟨n, hc⟩ | hc := Channel.clock_cases { s.chan c with rxd := s.rxdNext c } <;> rw [hc]
    · exact ⟨rfl, rfl⟩
    · exact ⟨rfl, rfl⟩
    · rw [Channel.sampleTick_eq]
      exact ⟨rfl, rfl⟩
  exact h.same ⟨rfl, rfl, rfl, rfl, fun c => (hclock c).1, fun c => by rw [(hclock c).2]⟩

/-! ### Every step -/

theorem strobe (h : s.Sound b) {f : State → State} (hf : (f s).Sound b) : (s.strobe f).Sound b :=
  State.strobe_keeps (P := State.Sound b) h (h.same ((State.SamePages.refl s).raise _)) fun _ => hf

theorem access (h : s.Sound b) {f : State → State} (hf : (f s).Sound b) : (s.access f).Sound b :=
  State.access_keeps (P := State.Sound b) h fun _ => hf

/-- Every command keeps the pages accounted for. -/
theorem exec (h : s.Sound b) (hl : s.ChannelsLaw) {i : Instr} (hw : i.wellFormed = true)
    (ht : Machine.exec i s = .next t) : t.Sound b := by
  have hfields : ∀ {u : State}, u.pageTable = s.pageTable → u.freeList = s.freeList →
      u.port = s.port → u.rfq = s.rfq → u.chans = s.chans → u.Sound b :=
    fun ht hf hp hr hc => h.same ((State.SamePages.refl s).of_chans ht hf hp hr hc)
  cases i
  case alloc => cases ht; exact h.strobe (h.allocBody hl.lawful)
  case release => cases ht; exact h.strobe h.releaseBody
  case seek => cases ht; exact h.strobe h.seekBody
  case take => cases ht; exact h.strobe h.takeBody
  case submit => cases ht; exact h.strobe h.submitBody
  case cancel => cases ht; exact h.strobe h.cancelBody
  case flush => cases ht; exact h.strobe h.flushBody
  case popdone => cases ht; exact h.strobe h.popdoneBody
  case enable => cases ht; exact h.strobe (h.enableBody hl.lawful)
  case disable => cases ht; exact h.strobe h.disableBody
  case abort => cases ht; exact h.strobe h.abortBody
  case clearseq => cases ht; exact h.strobe (hfields rfl rfl rfl rfl rfl)
  case stwrite => cases ht; exact h.strobe h.stwriteBody
  case stread => cases ht; exact h.strobe h.streadBody
  case counter => cases ht; exact h.strobe h.counterBody
  case srst => cases ht; exact h.strobe (done (softReset s) .ok)
  case dataRead => cases ht; exact h.access h.dataReadOp
  case dataWrite v => cases ht; exact h.access (h.dataWriteOp v)
  case eventWrite high v => cases ht; exact h.access (hfields rfl rfl rfl rfl rfl)
  case lowByteReadSnapshot off => cases ht; exact h.access (h.hostRead off)
  case registerWrite off v =>
    cases ht
    exact h.access (h.hostWrite (by simpa [Instr.wellFormed] using hw) v)
  case pinReset => cases ht; exact pinReset s
  case characterReceived c z => cases ht; exact h.lineCharacter hl z
  case receiveRequestServed => cases ht; exact (h.serveOne hl.lawful).settle
  case gapExpiry c => exact h.gapExpiry hl.lawful ht
  case skipGapExit c => exact h.skipGapExit hl.lawful ht
  case lineFault c => exact h.lineFault ht
  case responseStart c => exact h.responseStart ht
  case flowFrameStart c => exact h.flowFrameStart ht
  case attemptStart c => exact h.attemptStart hl.lawful ht
  case readbackCharacter c z => cases ht; exact h.lineCharacter hl z
  case missingReadback c => exact h.missingReadback ht
  case lineTransmitterQuiet c => exact h.lineTransmitterQuiet ht
  case collisionReported c => exact h.collisionReported ht
  case abortComplete c => exact h.abortComplete ht
  case backoffExpiry c => exact h.backoffExpiry ht
  case txAckTimeouts c => exact h.txAckTimeouts ht
  case busyExpiry c => exact h.busyExpiry ht
  case holdTimerExpiry c => cases ht; exact h.same ((State.SamePages.refl s).chan c rfl rfl)
  case refreshExpiry c => exact h.refreshExpiry ht
  case flowBackoffExpiry c => exact h.flowBackoffExpiry ht
  case startBitDetected c => exact h.startBitDetected ht
  case lineSampledHigh c => exact h.lineSampledHigh ht

end State.Sound

/-- Settles O58: the pages are accounted for by what the part's blocks hold before every step, and so
after it. -/
theorem stepKeepsEveryPageAccountedFor : Obligations.StepKeepsEveryPageAccountedFor := by
  intro s t hcanonical hchannels hpages ht
  have hsound : s.Sound s.PortLaw :=
    (State.sound_iff _ s).mpr ⟨hcanonical.2, hpages, id⟩
  have hkeeps : t.ChannelsLaw ∧ t.Sound s.PortLaw :=
    step_keeps (P := fun u => u.ChannelsLaw ∧ u.Sound s.PortLaw)
      (fun u q ⟨hl, hu⟩ =>
        ⟨hl.congr rfl rfl, hu.same ((State.SamePages.refl u).of_chans rfl rfl rfl rfl rfl)⟩)
      (fun _ _ _ hw ⟨hl, hu⟩ ht => ⟨hl.exec hw ht, hu.exec hl hw ht⟩)
      (fun _ ⟨hl, hu⟩ => ⟨hl.advance, hu.advance⟩) ⟨hchannels, hsound⟩ ht
  obtain ⟨-, hpages', hport'⟩ := (State.sound_iff _ t).mp hkeeps.2
  exact ⟨hpages', hport'⟩

end Sys2Proof.Machine
